-- ==== Sys2Proof/Word.lean ====
section
/-!
DEFINITION. The two word types of SSC-MUX (spec/00_scope.md R5, R7): bytes (segment bytes, fields of a command, small
registers) and the 32-bit words of the register bus.
-/

namespace Sys2Proof

/-- A byte; a Segment Byte has bit i set when segment i is lit (bits 0..6 are A..G, bit 7 the decimal point). -/
abbrev Byte := BitVec 8

/-- A 32-bit word: bus data, a command word, ARG, RESULT, NOW_MS. -/
abbrev Word := BitVec 32

end Sys2Proof
end

