-- ==== Sys2Proof/Syntax.lean ====
section
/-!
DEFINITION. The 24 commands of SSC-MUX (spec/30_encoding.md R97), one constructor per row of spec/opcode_table.json, with
the operands each command reads. Operands the spec uses as numbers (a digit index R92, a segment index R93, a digit value
R94, a shift R96) are numbers here, bytes and character codes are bytes, flags (R95) are booleans; what an encoding can
hold of them is said in WellFormed.lean.
-/

namespace Sys2Proof

/-- One command, as written to register CMD. -/
inductive Instr where
  /-- NOP (R240). -/
  | nop
  /-- INIT (R242). -/
  | init
  /-- CLEAR (R165). -/
  | clear
  /-- REFRESH (R245). -/
  | refresh
  /-- SET_BYTE d, b (R152). -/
  | setByte (d : Nat) (b : Byte)
  /-- SET_DIGIT d, n (R153). -/
  | setDigit (d : Nat) (n : Nat)
  /-- SET_CHAR d, c (R154). -/
  | setChar (d : Nat) (c : Byte)
  /-- SET_SEG d, s, on (R155). -/
  | setSeg (d : Nat) (k : Nat) (on : Bool)
  /-- SET_INT lz (R157); the value is in ARG. -/
  | setInt (lz : Bool)
  /-- SHIFT k (R160), positive toward the higher index. -/
  | shift (k : Int)
  /-- EN_DIGIT d, on (R180). -/
  | enDigit (d : Nat) (on : Bool)
  /-- BLINK_DIGIT d, on (R181). -/
  | blinkDigit (d : Nat) (on : Bool)
  /-- EN_ALL on (R182). -/
  | enAll (on : Bool)
  /-- BLINK_ALL on (R183). -/
  | blinkAll (on : Bool)
  /-- GET_BYTE d (R162). -/
  | getByte (d : Nat)
  /-- GET_SEG d, s (R163). -/
  | getSeg (d : Nat) (k : Nat)
  /-- GLYPH_DIGIT n (R130). -/
  | glyphDigit (n : Nat)
  /-- GLYPH_CHAR c (R131). -/
  | glyphChar (c : Byte)
  /-- GLYPH_MINUS (R132). -/
  | glyphMinus
  /-- GLYPH_DOT (R133). -/
  | glyphDot
  /-- SEG_SET b, s, on (R134). -/
  | segSet (b : Byte) (k : Nat) (on : Bool)
  /-- SEG_TEST b, s (R135). -/
  | segTest (b : Byte) (k : Nat)
  /-- INVERT b (R136). -/
  | invert (b : Byte)
  /-- IN_RANGE (R137); the value is in ARG. -/
  | inRange
deriving DecidableEq, Repr

end Sys2Proof
end

