-- ==== Sys2Proof/Decode.lean ====
section
/-!
DEFINITION. Decoding and encoding of the one command format CMD32 (spec/30_encoding.md R90 to R99, R102). A command is one
32-bit word of the bus; it has no bytes in an order of their own (spec/20_memory.md R74), so the decoder reads a word.
The opcode alone selects the command, a field the command does not read may hold anything (R99), and a reserved opcode is
refused by name (R98); what the machine then does (it rejects) is in Machine/Cycle.lean.
-/

namespace Sys2Proof

/-- Why a word is no command. -/
inductive DecodeError where
  /-- OP is not in the opcode map (R98). -/
  | reservedOpcode (op : Byte)
deriving DecidableEq, Repr

/-- OP = w[31:24] (R91). -/
def fieldOp (w : Word) : Byte := w.extractLsb' 24 8

/-- D = w[23:16]: a digit index, or the flag of SEG_SET (R91). -/
def fieldD (w : Word) : Byte := w.extractLsb' 16 8

/-- S = w[15:8]: a segment index (R91). -/
def fieldS (w : Word) : Byte := w.extractLsb' 8 8

/-- B = w[7:0]: a data byte, a digit value, a character code, a shift or a flag (R91). -/
def fieldB (w : Word) : Byte := w.extractLsb' 0 8

/-- The digit-index operand, zero-extended (R92). -/
def digitOperand (w : Word) : Nat := (fieldD w).toNat

/-- The segment-index operand, zero-extended (R93). -/
def segOperand (w : Word) : Nat := (fieldS w).toNat

/-- The digit-value operand, unsigned (R94). -/
def valueOperand (w : Word) : Nat := (fieldB w).toNat

/-- The shift operand, B sign-extended (R96). -/
def shiftOperand (w : Word) : Int := (fieldB w).toInt

/-- The flag B[0], that is w[0] (R95). -/
def flagB (w : Word) : Bool := (fieldB w).getLsbD 0

/-- The flag D[0], that is w[16], of SEG_SET (R95). -/
def flagD (w : Word) : Bool := (fieldD w).getLsbD 0

/-- The command that the word stands for (the opcode map, R97), or the name of the reserved opcode (R98). -/
def decode (w : Word) : Except DecodeError Instr :=
  match (fieldOp w).toNat with
  | 0x00 => .ok .nop
  | 0x01 => .ok .init
  | 0x02 => .ok .clear
  | 0x03 => .ok .refresh
  | 0x10 => .ok (.setByte (digitOperand w) (fieldB w))
  | 0x11 => .ok (.setDigit (digitOperand w) (valueOperand w))
  | 0x12 => .ok (.setChar (digitOperand w) (fieldB w))
  | 0x13 => .ok (.setSeg (digitOperand w) (segOperand w) (flagB w))
  | 0x14 => .ok (.setInt (flagB w))
  | 0x15 => .ok (.shift (shiftOperand w))
  | 0x20 => .ok (.enDigit (digitOperand w) (flagB w))
  | 0x21 => .ok (.blinkDigit (digitOperand w) (flagB w))
  | 0x22 => .ok (.enAll (flagB w))
  | 0x23 => .ok (.blinkAll (flagB w))
  | 0x30 => .ok (.getByte (digitOperand w))
  | 0x31 => .ok (.getSeg (digitOperand w) (segOperand w))
  | 0x32 => .ok (.glyphDigit (valueOperand w))
  | 0x33 => .ok (.glyphChar (fieldB w))
  | 0x34 => .ok .glyphMinus
  | 0x35 => .ok .glyphDot
  | 0x36 => .ok (.segSet (fieldB w) (segOperand w) (flagD w))
  | 0x37 => .ok (.segTest (fieldB w) (segOperand w))
  | 0x38 => .ok (.invert (fieldB w))
  | 0x39 => .ok .inRange
  | _ => .error (.reservedOpcode (fieldOp w))

/-- The decoder asked with an opcode-table row's bits: `w` numbered as the table numbers them (one 32-bit word, bit 0 the
least significant), every bit at or above `nbits` read as 0. No instruction is longer than 32 bits (R91). -/
def decodeTableWord (nbits w : Nat) : Option Instr :=
  if nbits ≤ 32 then
    match decode (BitVec.ofNat 32 (w % 2 ^ nbits)) with
    | .ok i => some i
    | .error _ => none
  else none

/-! ## The encoder -/

/-- The word w = {OP, D, S, B} (R102). -/
def packWord (op d s b : Byte) : Word := op ++ d ++ s ++ b

/-- A flag in bit 0 of its field, the ignored bits 0 (R95, R102). -/
def flagByte (on : Bool) : Byte := if on then 1 else 0

/-- The opcode of each command (R97). -/
def opcode : Instr → Byte
  | .nop => 0x00
  | .init => 0x01
  | .clear => 0x02
  | .refresh => 0x03
  | .setByte _ _ => 0x10
  | .setDigit _ _ => 0x11
  | .setChar _ _ => 0x12
  | .setSeg _ _ _ => 0x13
  | .setInt _ => 0x14
  | .shift _ => 0x15
  | .enDigit _ _ => 0x20
  | .blinkDigit _ _ => 0x21
  | .enAll _ => 0x22
  | .blinkAll _ => 0x23
  | .getByte _ => 0x30
  | .getSeg _ _ => 0x31
  | .glyphDigit _ => 0x32
  | .glyphChar _ => 0x33
  | .glyphMinus => 0x34
  | .glyphDot => 0x35
  | .segSet _ _ _ => 0x36
  | .segTest _ _ => 0x37
  | .invert _ => 0x38
  | .inRange => 0x39

/-- The fields D, S and B of an assembled command, every field it does not use 0 (R102). -/
def encodeFields : Instr → Byte × Byte × Byte
  | .nop => (0, 0, 0)
  | .init => (0, 0, 0)
  | .clear => (0, 0, 0)
  | .refresh => (0, 0, 0)
  | .setByte d b => (BitVec.ofNat 8 d, 0, b)
  | .setDigit d n => (BitVec.ofNat 8 d, 0, BitVec.ofNat 8 n)
  | .setChar d c => (BitVec.ofNat 8 d, 0, c)
  | .setSeg d k on => (BitVec.ofNat 8 d, BitVec.ofNat 8 k, flagByte on)
  | .setInt lz => (0, 0, flagByte lz)
  | .shift k => (0, 0, BitVec.ofInt 8 k)
  | .enDigit d on => (BitVec.ofNat 8 d, 0, flagByte on)
  | .blinkDigit d on => (BitVec.ofNat 8 d, 0, flagByte on)
  | .enAll on => (0, 0, flagByte on)
  | .blinkAll on => (0, 0, flagByte on)
  | .getByte d => (BitVec.ofNat 8 d, 0, 0)
  | .getSeg d k => (BitVec.ofNat 8 d, BitVec.ofNat 8 k, 0)
  | .glyphDigit n => (0, 0, BitVec.ofNat 8 n)
  | .glyphChar c => (0, 0, c)
  | .glyphMinus => (0, 0, 0)
  | .glyphDot => (0, 0, 0)
  | .segSet b k on => (flagByte on, BitVec.ofNat 8 k, b)
  | .segTest b k => (0, BitVec.ofNat 8 k, b)
  | .invert b => (0, 0, b)
  | .inRange => (0, 0, 0)

/-- The word of a well-formed command (R102). -/
def encode (i : Instr) : Word :=
  packWord (opcode i) (encodeFields i).1 (encodeFields i).2.1 (encodeFields i).2.2

end Sys2Proof
end

