-- ==== Sys2Proof/Config.lean ====
section
/-!
DEFINITION. The parameters an SSC-MUX is built with (spec/00_scope.md R5). They never change while the block runs
(spec/10_state.md section 1); the model carries them as the field `cfg` of State, so that a statement about every state
is a statement about every parameter value (notes/assumptions/3.md). A parameter the spec leaves OPEN has, in the
configuration that State.reset starts with, a constant without a body: nothing is known of it.
-/

namespace Sys2Proof

/-- The parameters of spec/00_scope.md R5. Of the 24 entries of PUNCT_GLYPH the 21 open ones stand here, entry p of the
table (2 ≤ p ≤ 22) at index p - 2; the three decided ones (R116) are in `Machine.punctGlyph`. -/
structure Config where
  /-- MAXDIGITS, the number of frame-buffer entries and digit ports built, 1..9. -/
  maxDigits : Nat
  /-- CLK_PER_MS, the clock cycles of one millisecond tick, at least 1. -/
  clkPerMs : Nat
  /-- DIGIT_GLYPH, the patterns of 0..9. -/
  digitGlyph : Vector Byte 10
  /-- LETTER_GLYPH, the patterns of A..Z (R114). -/
  letterGlyph : Vector Byte 26
  /-- The open entries 2..22 of PUNCT_GLYPH (R116). -/
  punctOpen : Vector Byte 21
  /-- UNK_GLYPH_RESET, the reset value of UNK_GLYPH. -/
  unkGlyphReset : Byte
deriving DecidableEq, Repr

/-- The legal ranges of spec/00_scope.md R5. -/
abbrev Config.legal (c : Config) : Prop :=
  1 ≤ c.maxDigits ∧ c.maxDigits ≤ 9 ∧ 1 ≤ c.clkPerMs

namespace Config

/-- CLK_PER_MS - 1 of the build (OPEN, spec/92_eei_decisions.md D5): any number (notes/assumptions/4.md). -/
opaque openClkPerMsPred : Nat

/-- Entry k of LETTER_GLYPH of the build (OPEN, D15): any byte (notes/assumptions/5.md). -/
opaque openLetterGlyph : Nat → Byte

/-- Entry p of PUNCT_GLYPH of the build, 2 ≤ p ≤ 22 (OPEN, D16): any byte (notes/assumptions/6.md). -/
opaque openPunctGlyph : Nat → Byte

/-- UNK_GLYPH_RESET of the build (OPEN, D13): any byte (notes/assumptions/7.md). -/
opaque openUnkGlyphReset : Byte

end Config

end Sys2Proof
end

