-- ==== Sys2Proof/Machine/Build.lean ====
section
/-!
DEFINITION. The configuration that the machine has at State.reset: the values spec/00_scope.md R5 fixes (MAXDIGITS 8, the
default digit table of spec/40_glyph_encoder.md R113) and, for every parameter R5 leaves OPEN, the constant without a body
of Config.lean.
-/

namespace Sys2Proof.Machine

/-- The default DIGIT_GLYPH (spec/40_glyph_encoder.md R113; spec/93_implementation_defined.md G1, which the spec takes from
general knowledge: notes/assumptions/8.md). -/
def canonicalDigitGlyph : Vector Byte 10 :=
  #v[0x3F, 0x06, 0x5B, 0x4F, 0x66, 0x6D, 0x7D, 0x07, 0x7F, 0x6F]

/-- The parameters of the build that State.reset describes (spec/00_scope.md R5). CLK_PER_MS is any number from 1 on. -/
def buildConfig : Config where
  maxDigits := 8
  clkPerMs := Config.openClkPerMsPred + 1
  digitGlyph := canonicalDigitGlyph
  letterGlyph := Vector.ofFn fun k => Config.openLetterGlyph k.val
  punctOpen := Vector.ofFn fun p => Config.openPunctGlyph (p.val + 2)
  unkGlyphReset := Config.openUnkGlyphReset

end Sys2Proof.Machine
end

