-- ==== Sys2Proof/Machine/State.lean ====
section
/-!
DEFINITION. The state of one SSC-MUX (spec/10_state.md), as plain data, and the state after a reset cycle (R50). Three
fields are the model's own and not the spec's: `cfg` (the parameters, which never change), `inputs` (what the host will
do in the coming cycles) and `rdata` (what the output port rdata showed in the last cycle).
-/

namespace Sys2Proof.Machine

/-- No event stops the block: it raises no exception (spec/60_exceptions.md R263, R266) and never halts
(spec/44_lifecycle.md R248). The type has no constructor, so no step ever faults; a stop that a test showed would need one
(safe: the model goes on wherever the spec does). -/
inductive Fault where
deriving DecidableEq, Repr

/-- Why the machine has no meaning for an instruction. -/
inductive Refusal where
  /-- Raised by an arm of `exec` for an instruction that has no meaning yet. No arm raises it: every command of the opcode
  map is modelled (safe: a refused instruction has no next state about which anything could be proved). -/
  | notModelled (mnemonic : String)
deriving DecidableEq, Repr

/-- The register-bus operation of one cycle (spec/20_memory.md R71). A read and a write in one cycle cannot be said. -/
inductive BusOp where
  /-- No operation. -/
  | idle
  /-- `Read(a)`, a word address. -/
  | read (a : BitVec 4)
  /-- `Write(a, d)`. -/
  | write (a : BitVec 4) (d : Word)
deriving DecidableEq, Repr

/-- What the host drives in one clock cycle (spec/10_state.md R48, spec/44_lifecycle.md R249). -/
structure HostCycle where
  /-- The synchronous reset input. -/
  rst : Bool
  /-- The bus operation. -/
  op : BusOp
deriving DecidableEq, Repr

/-- The scan sequencer's state (spec/10_state.md R45). The encoding 3, which never occurs, is no value of it. -/
inductive SeqState where
  /-- No pass in progress; encoded 0. -/
  | idle
  /-- In the slot of digit `idx`; encoded 1. -/
  | slot
  /-- In the inter-frame gap; encoded 2. -/
  | gap
deriving DecidableEq, Repr

/-- The scan-sequencer registers (spec/10_state.md R45, R46), which the bus mirrors in SEQ (R47). -/
structure SeqRegs where
  /-- seq_state. -/
  state : SeqState
  /-- seq_idx: the digit of the slot, DLEN in the gap, 0 in IDLE. -/
  idx : BitVec 4
  /-- seq_cnt: the ticks left in the slot or gap, 0 in IDLE. -/
  cnt : Byte
  /-- seq_lit: the slot is lit. -/
  lit : Bool
  /-- seq_latch: the byte sampled when the slot began. -/
  latch : Byte
deriving DecidableEq, Repr

/-- The reset values of the sequencer registers (spec/10_state.md R45, R46, R50), which IDLE also returns to but for the
latch. -/
def SeqRegs.reset : SeqRegs where
  state := .idle
  idx := 0
  cnt := 0
  lit := false
  latch := 0

/-- The machine (spec/10_state.md). The arrays fb, en and bl hold MAXDIGITS entries, index 0 first (the rightmost digit,
spec/00_scope.md R11). -/
structure State where
  /-- The parameters of spec/00_scope.md R5; no step changes them (the model's own field). -/
  cfg : Config
  /-- The frame buffer (R20): one logical segment byte a digit. -/
  fb : List Byte
  /-- The enable flags (R23). -/
  en : List Bool
  /-- The blink flags (R24). -/
  bl : List Bool
  /-- ARG (R29). -/
  arg : Word
  /-- RESULT (R30). -/
  result : Word
  /-- STATUS.INIT (R37, R44). -/
  init : Bool
  /-- STATUS.REJ, sticky (R37, R38). -/
  rej : Bool
  /-- STATUS.PEND, a refresh request (R37, R44). -/
  pend : Bool
  /-- CONFIG.POL (R31): 1 = common anode. -/
  pol : Bool
  /-- CONFIG.HAS_DP (R31): 1 = eight segment lines. -/
  hasDp : Bool
  /-- CONFIG.DLEN (R31): the display length. -/
  dlen : BitVec 4
  /-- CONFIG.DWELL (R31): the dwell time in milliseconds. -/
  dwell : Byte
  /-- CONFIG.BRIGHT (R31): the brightness duty. -/
  bright : Byte
  /-- BLINK_IV.IV (R34): the blink interval in milliseconds. -/
  iv : BitVec 16
  /-- UNK_GLYPH.G (R35): the unidentified-character glyph. -/
  unkGlyph : Byte
  /-- CTRL.CONT (R36): passes follow each other. -/
  cont : Bool
  /-- The prescaler (R43): clock cycles of the current millisecond. -/
  presc : Nat
  /-- NOW_MS (R39): the millisecond counter. -/
  nowMs : Word
  /-- The scan-sequencer registers (R45, R46). -/
  seq : SeqRegs
  /-- What the host drives in the coming cycles, first cycle first; past its end the host stays idle (the model's own field,
  notes/assumptions/1.md). -/
  inputs : List HostCycle
  /-- The output port rdata of the last cycle (spec/20_memory.md R72; the model's own field, notes/assumptions/2.md). -/
  rdata : Word
deriving DecidableEq, Repr

/-- The reset state of a block built with the parameters `c` (spec/10_state.md R50), with nothing left to come from the
host, and rdata 0 as in every reset cycle (spec/70_reset_and_hazards.md R280). -/
def State.resetOf (c : Config) : State where
  cfg := c
  fb := List.replicate c.maxDigits 0
  en := List.replicate c.maxDigits true
  bl := List.replicate c.maxDigits false
  arg := 0
  result := 0
  init := false
  rej := false
  pend := false
  pol := false
  hasDp := true
  dlen := BitVec.ofNat 4 c.maxDigits
  dwell := 2
  bright := 200
  iv := 250
  unkGlyph := c.unkGlyphReset
  cont := true
  presc := 0
  nowMs := 0
  seq := SeqRegs.reset
  inputs := []
  rdata := 0

/-- The machine right after reset (spec/10_state.md R50), with the build's parameters. -/
def State.reset : State := State.resetOf buildConfig

end Sys2Proof.Machine
end

