-- ==== Sys2Proof/Machine/Ops.lean ====
section
/-!
DEFINITION. The named operations over the state that the meanings are written with: reading and writing the arrays, the
single-field updates, and rejection. Rejection is what this block has in place of taking an exception
(spec/60_exceptions.md R260, R266): it sets one sticky bit; a STATUS write or a reset clears it.
-/

namespace Sys2Proof.Machine

/-- What every command answers (spec/44_lifecycle.md R248: the block never stops). -/
abbrev Result := Host.Outcome State Fault Refusal

/-- The blank glyph, all segments off (spec/40_glyph_encoder.md R111). -/
def blank : Byte := 0x00

/-- L = S.DLEN as a number (spec/41_frame_buffer.md, opening). -/
def State.len (s : State) : Nat := s.dlen.toNat

/-! ## Reading the arrays -/

/-- fb[i]; beyond the array (no command and no sample goes there) blank. -/
def fbAt (s : State) (i : Nat) : Byte := s.fb.getD i blank

/-- en[i]; beyond the array 0. -/
def enAt (s : State) (i : Nat) : Bool := s.en.getD i false

/-- bl[i]; beyond the array 0. -/
def blAt (s : State) (i : Nat) : Bool := s.bl.getD i false

/-- The entries 0..L-1 of an array become `f i`, the others stay (spec/41_frame_buffer.md R156): one write of all of them
at one edge. -/
def writeFirst {α : Type} (L : Nat) (f : Nat → α) (xs : List α) : List α :=
  xs.mapIdx fun i x => if i < L then f i else x

/-- The arrays hold one entry for each digit built, MAXDIGITS of them (spec/10_state.md R20, R23, R24): the canonical form
of the block's memory, so that equal contents are equal data. -/
abbrev Memory.wf (s : State) : Prop :=
  s.fb.length = s.cfg.maxDigits ∧ s.en.length = s.cfg.maxDigits ∧ s.bl.length = s.cfg.maxDigits

/-! ## Single-field updates -/

/-- Writes the frame buffer. -/
def State.setFb (s : State) (v : List Byte) : State := { s with fb := v }

/-- Writes the enable flags. -/
def State.setEn (s : State) (v : List Bool) : State := { s with en := v }

/-- Writes the blink flags. -/
def State.setBl (s : State) (v : List Bool) : State := { s with bl := v }

/-- Writes RESULT. -/
def State.setResult (s : State) (v : Word) : State := { s with result := v }

/-- Writes STATUS.REJ. -/
def State.setRej (s : State) (v : Bool) : State := { s with rej := v }

/-- Writes STATUS.PEND. -/
def State.setPend (s : State) (v : Bool) : State := { s with pend := v }

/-- Writes STATUS.INIT. -/
def State.setInit (s : State) (v : Bool) : State := { s with init := v }

/-! ## Rejection -/

/-- `reject()`: STATUS.REJ becomes 1, and nothing else changes (spec/60_exceptions.md R260). -/
def reject (s : State) : State := s.setRej true

/-- REJ is set unless the operation was valid; an earlier REJ stays (sticky, R260). -/
def rejectUnless (valid : Bool) (s : State) : State := if valid then s else reject s

/-- The way back: REJ is cleared (spec/10_state.md R38). -/
def clearRej (s : State) : State := s.setRej false

/-- The lifecycle gate of a display command or query (spec/44_lifecycle.md R241, R243): while init = 0 it is rejected,
otherwise it takes its effect. -/
def gated (effect : State → State) (s : State) : Result :=
  .next (if s.init then effect s else reject s)

/-- A query's answer (spec/10_state.md R30, spec/60_exceptions.md R262): RESULT holds it in every case, and REJ is set when
an index was out of range. -/
def answer (valid : Bool) (v : Word) (s : State) : State :=
  rejectUnless valid (s.setResult v)

/-- Writes one frame-buffer entry when the digit index is below DLEN, else rejects (spec/41_frame_buffer.md R150). -/
def writeDigit (d : Nat) (b : Byte) (s : State) : State :=
  if d < s.len then s.setFb (s.fb.set d b) else reject s

/-- Writes the entries 0..L-1 of the frame buffer at one edge (spec/41_frame_buffer.md R156). -/
def writeBuffer (f : Nat → Byte) (s : State) : State := s.setFb (writeFirst s.len f s.fb)

end Sys2Proof.Machine
end

