-- ==== Sys2Proof/Machine/Operands.lean ====
section
/-!
DEFINITION. The operand forms of the commands that read the state: the digit-index check (spec/30_encoding.md R92), the
segment-index check (R93, spec/40_glyph_encoder.md R120) and the signed value of ARG (spec/10_state.md R29). The fields of
the command word itself are in Decode.lean.
-/

namespace Sys2Proof.Machine

/-- A digit index is accepted when it is below DLEN; it never wraps and is never clamped (R92). -/
def digitValid (s : State) (d : Nat) : Bool := d < s.len

/-- `segValid(s)`: a segment index is valid when it is at most 6, or 7 with a decimal point configured (R93, R120). -/
def segValid (s : State) (k : Nat) : Bool := k ≤ 6 || (k == 7 && s.hasDp)

/-- `sint(ARG)` (spec/00_scope.md R8, spec/10_state.md R29). -/
def argInt (s : State) : Int := s.arg.toInt

end Sys2Proof.Machine
end

