-- ==== Sys2Proof/Machine/Effects.lean ====
section
/-!
DEFINITION. The enable and blink commands and the masking semantics (spec/42_effects.md).
-/

namespace Sys2Proof.Machine

/-- EN_DIGIT d, on (R180). -/
def execEnDigit (d : Nat) (on : Bool) (s : State) : Result :=
  gated (fun s => if digitValid s d then s.setEn (s.en.set d on) else reject s) s

/-- BLINK_DIGIT d, on (R181). -/
def execBlinkDigit (d : Nat) (on : Bool) (s : State) : Result :=
  gated (fun s => if digitValid s d then s.setBl (s.bl.set d on) else reject s) s

/-- EN_ALL on (R182): the indices 0..L-1 only. -/
def execEnAll (on : Bool) (s : State) : Result :=
  gated (fun s => s.setEn (writeFirst s.len (fun _ => on) s.en)) s

/-- BLINK_ALL on (R183): the indices 0..L-1 only. -/
def execBlinkAll (on : Bool) (s : State) : Result :=
  gated (fun s => s.setBl (writeFirst s.len (fun _ => on) s.bl)) s

/-! ## The masking semantics -/

/-- The three states of a digit (R185). -/
inductive DigitMode where
  /-- Not enabled: its lines are never asserted. -/
  | off
  /-- Enabled and not blinking. -/
  | on
  /-- Enabled and blinking: alternates with the global phase. -/
  | blinking
deriving DecidableEq, Repr

/-- The state of digit i, from its two flags (R185). -/
def digitMode (s : State) (i : Nat) : DigitMode :=
  if enAt s i then (if blAt s i then .blinking else .on) else .off

/-- `blinkOn(t)` (R186): t mod (2·IV) < IV, with 2·IV not cut to 16 bits. -/
def blinkOn (iv : BitVec 16) (t : Word) : Bool := t.toNat % (2 * iv.toNat) < iv.toNat

end Sys2Proof.Machine
end

