-- ==== Sys2Proof/Machine/Glyph.lean ====
section
/-!
DEFINITION. The glyph encoder's pure functions (spec/40_glyph_encoder.md R110 to R129): the tables, the segment bit
functions and the integer renderer. Every value is a logical byte, bit set = lit, under either polarity (R110).
-/

namespace Sys2Proof.Machine

/-! ## Tables -/

/-- The dedicated segment-G pattern (R111). -/
def minusGlyph : Byte := 0x40

/-- The dedicated decimal-point pattern (R111). -/
def dotGlyph : Byte := 0x80

/-- `digitGlyph(n)`: the table's entry for 0..9, blank above (R112). -/
def digitGlyph (c : Config) (n : Nat) : Byte := (c.digitGlyph[n]?).getD blank

/-- LETTER_GLYPH[k], k = 0 for A .. 25 for Z (R114). -/
def letterGlyph (c : Config) (k : Nat) : Byte := (c.letterGlyph[k]?).getD blank

/-- PUNCT_CODES in the order of their indices p (R115): `. - ! ? ( ) [ ]`, then `/ \ * ° " ' + _`, then
`: ; = > < ^ , space`. -/
def punctCodes : List Byte :=
  [0x2E, 0x2D, 0x21, 0x3F, 0x28, 0x29, 0x5B, 0x5D,
   0x2F, 0x5C, 0x2A, 0xB0, 0x22, 0x27, 0x2B, 0x5F,
   0x3A, 0x3B, 0x3D, 0x3E, 0x3C, 0x5E, 0x2C, 0x20]

/-- PUNCT_GLYPH[p]: '.', '-' and space are decided, the other 21 entries are the configuration's (R116). -/
def punctGlyph (c : Config) (p : Nat) : Byte :=
  if p = 0 then dotGlyph
  else if p = 1 then minusGlyph
  else if p = 23 then blank
  else (c.punctOpen[p - 2]?).getD blank

/-- `charGlyph(c)` of an 8-bit code (R117): letters case-folded, digits, the punctuation set, else UNK_GLYPH. -/
def charGlyph (s : State) (c : Byte) : Byte :=
  let n := c.toNat
  if 0x41 ≤ n ∧ n ≤ 0x5A then letterGlyph s.cfg (n - 0x41)
  else if 0x61 ≤ n ∧ n ≤ 0x7A then letterGlyph s.cfg (n - 0x61)
  else if 0x30 ≤ n ∧ n ≤ 0x39 then digitGlyph s.cfg (n - 0x30)
  else match punctCodes.idxOf? c with
    | some p => punctGlyph s.cfg p
    | none => s.unkGlyph

/-! ## Segment bits -/

/-- `setSegment(b, s, on)`; an invalid segment index leaves the byte (R121). -/
def setSegment (s : State) (b : Byte) (k : Nat) (on : Bool) : Byte :=
  if segValid s k then
    if on then b ||| (1#8 <<< k) else b &&& ~~~(1#8 <<< k)
  else b

/-- `segmentActive(b, s)`; the sentinel false for an invalid segment index (R122). -/
def segmentActive (s : State) (b : Byte) (k : Nat) : Bool := segValid s k && b.getLsbD k

/-- Byte inversion (R123). -/
def invertByte (b : Byte) : Byte := ~~~b

/-! ## The integer renderer -/

/-- `valueInRange(v, L)` (R124): −(10^(L−1) − 1) ≤ v ≤ 10^L − 1. -/
def valueInRange (v : Int) (L : Nat) : Bool :=
  -((10 : Int) ^ (L - 1) - 1) ≤ v && v ≤ (10 : Int) ^ L - 1

/-- d_i, the decimal digit i of the magnitude a (R125). -/
def decimalDigit (a i : Nat) : Nat := a / 10 ^ i % 10

/-- m, the position of the most significant nonzero digit among the first L (R126), 0 where there is none: for a = 0 as
the rule says, and for a multiple of 10^L, which no value in range is (notes/assumptions/12.md). -/
def topDigit (a : Nat) : Nat → Nat
  | 0 => 0
  | i + 1 => if decimalDigit a i ≠ 0 then i else topDigit a i

/-- Where the minus sign goes (R126, R127): the leftmost slot when leading zeros are shown, else left of the most
significant nonzero digit. -/
def minusPlace (a L : Nat) (lz : Bool) : Nat :=
  if lz then L - 1 else min (topDigit a L + 1) (L - 1)

/-- out[i] of `encodeInteger` before the minus sign: the digit's glyph, or blank for a suppressed leading zero (R126, R127). -/
def renderedDigit (c : Config) (a L : Nat) (lz : Bool) (i : Nat) : Byte :=
  if lz ∨ i ≤ topDigit a L then digitGlyph c (decimalDigit a i) else blank

/-- out[i] of `encodeInteger(v, L, lz)`, i < L (R125 to R129): the digits of the magnitude, and the minus sign of a
negative value written last (R128). -/
def encodedInteger (c : Config) (v : Int) (L : Nat) (lz : Bool) (i : Nat) : Byte :=
  if v < 0 ∧ i = minusPlace v.natAbs L lz then minusGlyph
  else renderedDigit c v.natAbs L lz i

end Sys2Proof.Machine
end

