-- ==== Sys2Proof/Machine/FrameBuffer.lean ====
section
/-!
DEFINITION. The frame-buffer commands (spec/41_frame_buffer.md). Each is gated by the lifecycle
(spec/44_lifecycle.md R241); reads are of the state before the edge, and each whole-buffer write is one update (R156).
-/

namespace Sys2Proof.Machine

/-- SET_BYTE d, b (R152). -/
def execSetByte (d : Nat) (b : Byte) (s : State) : Result :=
  gated (fun s => writeDigit d b s) s

/-- SET_DIGIT d, n (R153): a one-digit look-up; n ≥ 10 writes blank. -/
def execSetDigit (d n : Nat) (s : State) : Result :=
  gated (fun s => writeDigit d (digitGlyph s.cfg n) s) s

/-- SET_CHAR d, c (R154). -/
def execSetChar (d : Nat) (c : Byte) (s : State) : Result :=
  gated (fun s => writeDigit d (charGlyph s c) s) s

/-- SET_SEG d, s, on (R155): one segment of one digit, the other seven bits unchanged; an invalid index rejects. -/
def execSetSeg (d k : Nat) (on : Bool) (s : State) : Result :=
  gated (fun s => if segValid s k then writeDigit d (setSegment s (fbAt s d) k on) s else reject s) s

/-- SET_INT lz (R157): the value of ARG rendered over the whole display; out of range, the buffer is unchanged. -/
def execSetInt (lz : Bool) (s : State) : Result :=
  gated (fun s =>
    if valueInRange (argInt s) s.len then writeBuffer (encodedInteger s.cfg (argInt s) s.len lz) s
    else reject s) s

/-- The byte that SHIFT k puts at index i: that of index i − k before the edge, blank from outside (R160, R161). -/
def shiftedByte (s : State) (k : Int) (i : Nat) : Byte :=
  let j := (i : Int) - k
  if 0 ≤ j ∧ j < s.len then fbAt s j.toNat else blank

/-- SHIFT k (R160); every k is accepted. -/
def execShift (k : Int) (s : State) : Result :=
  gated (fun s => writeBuffer (shiftedByte s k) s) s

/-- GET_BYTE d (R162); the sentinel 0 with REJ when d is out of range. -/
def execGetByte (d : Nat) (s : State) : Result :=
  gated (fun s => answer (digitValid s d) (if digitValid s d then (fbAt s d).setWidth 32 else 0) s) s

/-- GET_SEG d, s (R163); the sentinel 0 with REJ when an index is out of range. -/
def execGetSeg (d k : Nat) (s : State) : Result :=
  gated (fun s =>
    answer (digitValid s d && segValid s k)
      (if digitValid s d && segValid s k then (BitVec.ofBool ((fbAt s d).getLsbD k)).setWidth 32 else 0) s) s

/-- CLEAR (R165): every digit of the display blank. -/
def execClear (s : State) : Result :=
  gated (fun s => writeBuffer (fun _ => blank) s) s

end Sys2Proof.Machine
end

