-- ==== Sys2Proof/Machine/GlyphQuery.lean ====
section
/-!
DEFINITION. The query commands of the glyph encoder (spec/40_glyph_encoder.md R130 to R137). Each writes RESULT and, for
an invalid segment index, also REJ (spec/60_exceptions.md R262); none changes the buffer, the flags or the sequencer.
-/

namespace Sys2Proof.Machine

/-- GLYPH_DIGIT n (R130). -/
def execGlyphDigit (n : Nat) (s : State) : Result :=
  gated (fun s => answer true ((digitGlyph s.cfg n).setWidth 32) s) s

/-- GLYPH_CHAR c (R131). -/
def execGlyphChar (c : Byte) (s : State) : Result :=
  gated (fun s => answer true ((charGlyph s c).setWidth 32) s) s

/-- GLYPH_MINUS (R132). -/
def execGlyphMinus (s : State) : Result :=
  gated (fun s => answer true (minusGlyph.setWidth 32) s) s

/-- GLYPH_DOT (R133). -/
def execGlyphDot (s : State) : Result :=
  gated (fun s => answer true (dotGlyph.setWidth 32) s) s

/-- SEG_SET b, s, on (R134): an invalid index answers b unchanged, with REJ. -/
def execSegSet (b : Byte) (k : Nat) (on : Bool) (s : State) : Result :=
  gated (fun s => answer (segValid s k) ((setSegment s b k on).setWidth 32) s) s

/-- SEG_TEST b, s (R135): an invalid index answers 0, with REJ. -/
def execSegTest (b : Byte) (k : Nat) (s : State) : Result :=
  gated (fun s => answer (segValid s k) ((BitVec.ofBool (segmentActive s b k)).setWidth 32) s) s

/-- INVERT b (R136). -/
def execInvert (b : Byte) (s : State) : Result :=
  gated (fun s => answer true ((invertByte b).setWidth 32) s) s

/-- IN_RANGE (R137): 1 when the value of ARG fits the display, else 0; never rejected for the value. -/
def execInRange (s : State) : Result :=
  gated (fun s => answer true (if valueInRange (argInt s) s.len then 1 else 0) s) s

end Sys2Proof.Machine
end

