-- ==== Sys2Proof/Machine/Lifecycle.lean ====
section
/-!
DEFINITION. The lifecycle commands NOP, INIT and REFRESH (spec/44_lifecycle.md).
-/

namespace Sys2Proof.Machine

/-- NOP (R240): no effect, never rejected. -/
def execNop (s : State) : Result := .next s

/-- INIT (R242, R244): init becomes 1; when it is 1 already, rejected. -/
def execInit (s : State) : Result := .next (if s.init then reject s else s.setInit true)

/-- REFRESH (R245): requests one pass. The merge with the sequencer's clear (R246) is the clock cycle's
(Machine/Cycle.lean). -/
def execRefresh (s : State) : Result := gated (fun s => s.setPend true) s

end Sys2Proof.Machine
end

