-- ==== Sys2Proof/Machine/Dispatch.lean ====
section
/-!
DEFINITION. One arm per command (spec/30_encoding.md R97), each a direct call of its meaning. `exec` is the command's own
effect, the writes E of spec/44_lifecycle.md R246; the time base, the sequencer and the merge of pend are the clock cycle's
(Machine/Cycle.lean).
-/

namespace Sys2Proof.Machine

def exec (i : Instr) (s : State) : Host.Outcome State Fault Refusal :=
  match i with
  | .nop => Sys2Proof.Machine.execNop s
  | .init => Sys2Proof.Machine.execInit s
  | .clear => Sys2Proof.Machine.execClear s
  | .refresh => Sys2Proof.Machine.execRefresh s
  | .setByte d b => Sys2Proof.Machine.execSetByte d b s
  | .setDigit d n => Sys2Proof.Machine.execSetDigit d n s
  | .setChar d c => Sys2Proof.Machine.execSetChar d c s
  | .setSeg d k on => Sys2Proof.Machine.execSetSeg d k on s
  | .setInt lz => Sys2Proof.Machine.execSetInt lz s
  | .shift k => Sys2Proof.Machine.execShift k s
  | .enDigit d on => Sys2Proof.Machine.execEnDigit d on s
  | .blinkDigit d on => Sys2Proof.Machine.execBlinkDigit d on s
  | .enAll on => Sys2Proof.Machine.execEnAll on s
  | .blinkAll on => Sys2Proof.Machine.execBlinkAll on s
  | .getByte d => Sys2Proof.Machine.execGetByte d s
  | .getSeg d k => Sys2Proof.Machine.execGetSeg d k s
  | .glyphDigit n => Sys2Proof.Machine.execGlyphDigit n s
  | .glyphChar c => Sys2Proof.Machine.execGlyphChar c s
  | .glyphMinus => Sys2Proof.Machine.execGlyphMinus s
  | .glyphDot => Sys2Proof.Machine.execGlyphDot s
  | .segSet b k on => Sys2Proof.Machine.execSegSet b k on s
  | .segTest b k => Sys2Proof.Machine.execSegTest b k s
  | .invert b => Sys2Proof.Machine.execInvert b s
  | .inRange => Sys2Proof.Machine.execInRange s

end Sys2Proof.Machine
end

