-- ==== Sys2Proof/Machine/Flags.lean ====
section
/-!
DEFINITION. The status word and the mirrors that the bus reads, computed from the state (spec/10_state.md R31, R34 to R37,
R40, R41, R47). The only flag that a command sets is REJ (Machine/Ops.lean, `reject`).
-/

namespace Sys2Proof.Machine

/-- STATUS.BUSY: a pass is in progress (R37; not a stored bit). -/
def busy (s : State) : Bool := s.seq.state != .idle

/-- The number whose bit i is entry i of the list. -/
def bitsToNat : List Bool → Nat
  | [] => 0
  | b :: bs => b.toNat + 2 * bitsToNat bs

/-- STATUS as read: PEND, REJ, BUSY, INIT in bits 3..0 (R37). -/
def statusWord (s : State) : Word :=
  0#28 ++ BitVec.ofBool s.pend ++ BitVec.ofBool s.rej ++ BitVec.ofBool (busy s) ++ BitVec.ofBool s.init

/-- CONFIG as read: BRIGHT [23:16], DWELL [15:8], DLEN [7:4], HAS_DP [1], POL [0], reserved bits 0 (R31, R32). -/
def configWord (s : State) : Word :=
  0#8 ++ s.bright ++ s.dwell ++ s.dlen ++ 0#2 ++ BitVec.ofBool s.hasDp ++ BitVec.ofBool s.pol

/-- EN_MASK as read: bit i is en[i] (R40). -/
def enMaskWord (s : State) : Word := BitVec.ofNat 32 (bitsToNat s.en)

/-- BL_MASK as read: bit i is bl[i] (R41). -/
def blMaskWord (s : State) : Word := BitVec.ofNat 32 (bitsToNat s.bl)

/-- The encoding of seq_state (R45). -/
def seqStateCode : SeqState → BitVec 2
  | .idle => 0
  | .slot => 1
  | .gap => 2

/-- SEQ as read: seq_latch [23:16], seq_cnt [15:8], seq_idx [7:4], seq_lit [2], seq_state [1:0] (R47). -/
def seqWord (q : SeqRegs) : Word :=
  0#8 ++ q.latch ++ q.cnt ++ q.idx ++ 0#1 ++ BitVec.ofBool q.lit ++ seqStateCode q.state

end Sys2Proof.Machine
end

