-- ==== Sys2Proof/Machine/Bus.lean ====
section
/-!
DEFINITION. The register bus (spec/10_state.md section 5, spec/20_memory.md): what each register reads as, and what a write
to each does. A write to CMD executes a command (spec/30_encoding.md R90).
-/

namespace Sys2Proof.Machine

/-! ## The address map (spec/10_state.md R27) -/

/-- CMD. -/
def addrCmd : BitVec 4 := 0x0
/-- ARG. -/
def addrArg : BitVec 4 := 0x1
/-- RESULT. -/
def addrResult : BitVec 4 := 0x2
/-- STATUS. -/
def addrStatus : BitVec 4 := 0x3
/-- CONFIG. -/
def addrConfig : BitVec 4 := 0x4
/-- BLINK_IV. -/
def addrBlinkIv : BitVec 4 := 0x5
/-- UNK_GLYPH. -/
def addrUnkGlyph : BitVec 4 := 0x6
/-- CTRL. -/
def addrCtrl : BitVec 4 := 0x7
/-- NOW_MS. -/
def addrNowMs : BitVec 4 := 0x8
/-- EN_MASK. -/
def addrEnMask : BitVec 4 := 0x9
/-- BL_MASK. -/
def addrBlMask : BitVec 4 := 0xA
/-- SEQ. -/
def addrSeq : BitVec 4 := 0xB

/-! ## Reads -/

/-- The value of the register at a word address, reserved bits 0; CMD and the reserved addresses read 0
(spec/20_memory.md R72, spec/10_state.md R28 to R42). -/
def regValue (s : State) (a : BitVec 4) : Word :=
  if a = addrArg then s.arg
  else if a = addrResult then s.result
  else if a = addrStatus then statusWord s
  else if a = addrConfig then configWord s
  else if a = addrBlinkIv then s.iv.setWidth 32
  else if a = addrUnkGlyph then s.unkGlyph.setWidth 32
  else if a = addrCtrl then (BitVec.ofBool s.cont).setWidth 32
  else if a = addrNowMs then s.nowMs
  else if a = addrEnMask then enMaskWord s
  else if a = addrBlMask then blMaskWord s
  else if a = addrSeq then seqWord s.seq
  else 0

/-- rdata of a cycle: the register's value in a read cycle, else 0 (spec/20_memory.md R72). -/
def readData (s : State) : BusOp → Word
  | .idle => 0
  | .read a => regValue s a
  | .write _ _ => 0

/-! ## Register writes -/

/-- A write to ARG (R29). -/
def writeArg (w : Word) (s : State) : State := { s with arg := w }

/-- A write to STATUS (R38): bit 2 clears REJ; never rejected. -/
def writeStatus (w : Word) (s : State) : State := if w.getLsbD 2 then clearRej s else s

/-- A length that CONFIG.DLEN may hold, 1..MAXDIGITS (R31). -/
def dlenLegal (s : State) (v : BitVec 4) : Bool := 1 ≤ v.toNat && v.toNat ≤ s.cfg.maxDigits

/-- The fields of a CONFIG write, each on its own; an illegal DLEN or DWELL keeps its value (R32). -/
def writeConfigFields (w : Word) (s : State) : State :=
  let len : BitVec 4 := w.extractLsb' 4 4
  let dwell : Byte := w.extractLsb' 8 8
  { s with
    pol := w.getLsbD 0
    hasDp := w.getLsbD 1
    dlen := if dlenLegal s len then len else s.dlen
    dwell := if dwell ≠ 0 then dwell else s.dwell
    bright := w.extractLsb' 16 8 }

/-- Whether every field of a CONFIG write is legal (R32). -/
def configLegal (w : Word) (s : State) : Bool :=
  dlenLegal s (w.extractLsb' 4 4) && w.extractLsb' 8 8 != 0#8

/-- A write to CONFIG: before INIT field by field, with REJ for an illegal one (R32); after INIT rejected (R33). -/
def writeConfig (w : Word) (s : State) : State :=
  if s.init then reject s else rejectUnless (configLegal w s) (writeConfigFields w s)

/-- A write to BLINK_IV (R34): any interval but 0, before or after INIT. -/
def writeBlinkIv (w : Word) (s : State) : State :=
  let v : BitVec 16 := w.extractLsb' 0 16
  if v ≠ 0 then { s with iv := v } else reject s

/-- A write to UNK_GLYPH (R35): before INIT only. -/
def writeUnkGlyph (w : Word) (s : State) : State :=
  if s.init then reject s else { s with unkGlyph := w.extractLsb' 0 8 }

/-- A write to CTRL (R36). -/
def writeCtrl (w : Word) (s : State) : State := { s with cont := w.getLsbD 0 }

/-- A write of a word to CMD (spec/30_encoding.md R90): the command it stands for runs; a reserved opcode is rejected
(R98), before INIT too (spec/44_lifecycle.md R241). -/
def execWord (w : Word) (s : State) : Result :=
  match decode w with
  | .ok i => exec i s
  | .error _ => .next (reject s)

/-- A bus write (spec/20_memory.md R73): the rule of the register at the address; a read-only register or a reserved
address rejects (spec/10_state.md R42). -/
def writeReg (a : BitVec 4) (w : Word) (s : State) : Result :=
  if a = addrCmd then execWord w s
  else if a = addrArg then .next (writeArg w s)
  else if a = addrStatus then .next (writeStatus w s)
  else if a = addrConfig then .next (writeConfig w s)
  else if a = addrBlinkIv then .next (writeBlinkIv w s)
  else if a = addrUnkGlyph then .next (writeUnkGlyph w s)
  else if a = addrCtrl then .next (writeCtrl w s)
  else .next (reject s)

/-- The writes E that the cycle's bus operation makes (spec/44_lifecycle.md R246); a read and an idle cycle write nothing. -/
def busEffect (op : BusOp) (s : State) : Result :=
  match op with
  | .idle => .next s
  | .read _ => .next s
  | .write a w => writeReg a w s

end Sys2Proof.Machine
end

