-- ==== Sys2Proof/Machine/Sequencer.lean ====
section
/-!
DEFINITION. The time base and the scan sequencer (spec/43_scan_sequencer.md R200 to R213). Everything here is computed from
the state before the edge and from the millisecond count after it (R201, R210).
-/

namespace Sys2Proof.Machine

/-! ## The time base -/

/-- The prescaler wraps in this cycle (R200). -/
def tick (s : State) : Bool := s.presc == s.cfg.clkPerMs - 1

/-- The prescaler after the edge (R200). -/
def nextPresc (s : State) : Nat := if tick s then 0 else s.presc + 1

/-- now_n, the millisecond counter after the edge, modulo 2^32 (R201). -/
def nextNow (s : State) : Word := if tick s then s.nowMs + 1 else s.nowMs

/-! ## Slots -/

/-- The first enabled digit at index i or above, below DLEN (R203); disabled digits are passed over in the same cycle
(R204). -/
def nextEnabled (s : State) (i : Nat) : Option Nat :=
  (List.range s.len).find? fun j => i ≤ j && enAt s j

/-- Whether a slot of digit j that begins now is lit: dark when the digit blinks and is in its off phase (R203). -/
def slotLit (s : State) (j : Nat) : Bool := !(blAt s j && !blinkOn s.iv (nextNow s))

/-- `beginSlot(i)` (R203): the slot of the first enabled digit at i or above, its byte and its phase sampled now (R205), or
the gap when there is none. DESIGN CHOICE: a slot of a pass in progress samples the changes made during that pass with
CTRL.CONT = 0 too, as R203, R205 and spec/20_memory.md R81 have it, against the last sentence of
spec/70_reset_and_hazards.md R292 (notes/assumptions/23.md). -/
def beginSlot (s : State) (i : Nat) : SeqRegs :=
  match nextEnabled s i with
  | none => { state := .gap, idx := s.dlen, cnt := s.dwell, lit := false, latch := s.seq.latch }
  | some j => { state := .slot, idx := BitVec.ofNat 4 j, cnt := s.dwell, lit := slotLit s j, latch := fbAt s j }

/-! ## The sequencer step -/

/-- A pass may start: CTRL.CONT, or a request is pending (R210). -/
def passWanted (s : State) : Bool := s.cont || s.pend

/-- The current slot or gap ends in this cycle: a tick with one tick left (R210). -/
def dwellOver (s : State) : Bool := tick s && s.seq.cnt == 1

/-- `startPass` happens in this cycle (R210): from IDLE after INIT, or at the end of a gap. This is also pend_clear. -/
def passStarts (s : State) : Bool :=
  match s.seq.state with
  | .idle => s.init && passWanted s
  | .slot => false
  | .gap => dwellOver s && passWanted s

/-- The slot or gap goes on: one tick less when this cycle ticks (R210). -/
def countDown (s : State) : SeqRegs :=
  if tick s then { s.seq with cnt := s.seq.cnt - 1 } else s.seq

/-- The sequencer returns to IDLE, the latch kept (R210). -/
def toIdle (s : State) : SeqRegs := { SeqRegs.reset with latch := s.seq.latch }

/-- The sequencer registers after the edge (R210). -/
def seqStep (s : State) : SeqRegs :=
  match s.seq.state with
  | .idle => if passStarts s then beginSlot s 0 else s.seq
  | .slot => if dwellOver s then beginSlot s (s.seq.idx.toNat + 1) else countDown s
  | .gap => if dwellOver s then (if passStarts s then beginSlot s 0 else toIdle s) else countDown s

end Sys2Proof.Machine
end

