-- ==== Sys2Proof/Machine/Cycle.lean ====
section
/-!
DEFINITION. One clock cycle (spec/44_lifecycle.md R246): the reset of R280, or the time base, the bus operation and the
sequencer, each computed from the state before the edge, and the merge of the refresh request.
-/

namespace Sys2Proof.Machine

/-- A cycle in which the host does nothing. -/
def idleCycle : HostCycle := { rst := false, op := .idle }

/-- A cycle in which the host makes one bus write. -/
def writeCycle (a : BitVec 4) (w : Word) : HostCycle := { rst := false, op := .write a w }

/-- What the host drives in this cycle; a host that has nothing more to do is idle (notes/assumptions/1.md). -/
def thisInput (s : State) : HostCycle := s.inputs.headD idleCycle

/-- The state after a reset cycle (spec/70_reset_and_hazards.md R280): the reset state of spec/10_state.md R50 whatever
came before, rdata 0; the parameters and what the host does later are no part of it. -/
def resetEdge (s : State) : State := { State.resetOf s.cfg with inputs := s.inputs.tail }

/-- pend after the edge (R246): a request wins over the sequencer's clear. `requested` is pend_set. -/
def mergePend (s : State) (requested : Bool) : Bool :=
  if requested then true else if passStarts s then false else s.pend

/-- The state after the edge, from the state before it and the writes `e` of the bus operation (R246). `e` was computed
with pend lowered, so that its pend is pend_set. -/
def commit (s : State) (op : BusOp) (e : State) : State :=
  { e with
    presc := nextPresc s
    nowMs := nextNow s
    seq := seqStep s
    pend := mergePend s e.pend
    inputs := s.inputs.tail
    rdata := readData s op }

/-- Carries on after a next state; a fault or a refusal stays what it is. -/
def mapNext (f : State → State) : Result → Result
  | .next s => .next (f s)
  | .fault r => .fault r
  | .refused r => .refused r

/-- One clock cycle with the given inputs (R246). No command reads pend, so lowering it for the bus operation changes none
of E's other writes, and shows pend_set (notes/assumptions/15.md). -/
def cycleWith (i : HostCycle) (s : State) : Result :=
  if i.rst then .next (resetEdge s)
  else mapNext (commit s i.op) (busEffect i.op (s.setPend false))

/-- One clock cycle, with what the host drives in it. -/
def clockCycle (s : State) : Result := cycleWith (thisInput s) s

/-- The host drives a write of a command word to CMD in the next cycle, before all that it does later. -/
def enqueueCommand (s : State) (w : Word) : State :=
  { s with inputs := writeCycle addrCmd w :: s.inputs }

end Sys2Proof.Machine
end

