-- ==== Sys2Proof/Machine/Step.lean ====
section
/-!
DEFINITION. The step: one rising edge of the block clock (spec/00_scope.md R10, spec/44_lifecycle.md R246), and the way a
word comes to be the next command.
-/

namespace Sys2Proof.Machine

/-- One step of the machine is one clock cycle. -/
def step (s : State) : Host.Outcome State Fault Refusal := clockCycle s

/-- The block fetches nothing (spec/10_state.md R26): the next instruction is the word that the host writes to CMD in the
next cycle. The bits at or above `nbits` are 0 (notes/assumptions/18.md). -/
def State.withFetchWord (s : State) (nbits w : Nat) : State :=
  enqueueCommand s (BitVec.ofNat 32 (w % 2 ^ nbits))

end Sys2Proof.Machine
end

