-- ==== Sys2Proof/Machine/Outputs.lean ====
section
/-!
DEFINITION. The output ports (spec/10_state.md R49), functions of the state after the edge (spec/43_scan_sequencer.md R220
to R225): the segment multiplexer, the digit select and its duty, and the output enable. Polarity acts here and nowhere
else (spec/10_state.md R21).
-/

namespace Sys2Proof.Machine

/-- lit_now: a lit slot is in progress (R220). -/
def litNow (s : State) : Bool := s.seq.state == .slot && s.seq.lit

/-- dig_act[i], the logical digit select (R220). -/
def digAct (s : State) (i : Nat) : Bool := litNow s && i == s.seq.idx.toNat

/-- seg_logical[k]: the latched byte's segment in a lit slot; the eighth only with a decimal point configured (R221). -/
def segLogical (s : State) (k : Nat) : Bool := litNow s && s.seq.latch.getLsbD k && (k < 7 || s.hasDp)

/-- seg_out[k], the physical level of segment line k (R221). -/
def segOut (s : State) (k : Nat) : Bool := segLogical s k ^^ s.pol

/-- seg_out[7:0] (R221). -/
def segOutByte (s : State) : Byte := BitVec.ofNat 8 (bitsToNat ((List.range 8).map (segOut s)))

/-- `eff(x)`: the duty inverted for a common-anode display (R222). -/
def effDuty (s : State) (x : Byte) : Byte := if s.pol then 255 - x else x

/-- dig_duty[i], the physical duty handed to the PWM generator (R222). DESIGN CHOICE: a lit slot of a cleared display keeps
its digit line asserted at the effective brightness, as R165, R220 and R222 have it, against the words of
spec/60_exceptions.md R272 that clearing the frame buffer leaves every line released (notes/assumptions/22.md). -/
def digDuty (s : State) (i : Nat) : Byte := if digAct s i then effDuty s s.bright else effDuty s 0

/-- out_en (R223). -/
def outEn (s : State) : Bool := s.init

/-- Every output port of the block in one cycle (spec/10_state.md R49). -/
structure Ports where
  /-- rdata[31:0]. -/
  rdata : Word
  /-- seg_out[7:0]. -/
  segOut : Byte
  /-- dig_act, index 0 first, one for each digit built. -/
  digAct : List Bool
  /-- dig_duty, index 0 first, one for each digit built. -/
  digDuty : List Byte
  /-- out_en. -/
  outEn : Bool
deriving DecidableEq, Repr

/-- What the ports show after an edge. rdata belongs to the cycle of that edge, the others to the cycle after it (R220,
spec/20_memory.md R72). -/
def ports (s : State) : Ports where
  rdata := s.rdata
  segOut := segOutByte s
  digAct := (List.range s.cfg.maxDigits).map (digAct s)
  digDuty := (List.range s.cfg.maxDigits).map (digDuty s)
  outEn := outEn s

end Sys2Proof.Machine
end

