-- ==== Sys2Proof/Safety.lean ====
section
/-!
DEFINITION. The terms that claims about SSC-MUX use: the invariant of its runs (spec/43_scan_sequencer.md R211,
spec/10_state.md R20, spec/44_lifecycle.md R242, R243), rejection as a relation, runs, and the events that set REJ
(spec/60_exceptions.md R261).
-/

namespace Sys2Proof.Machine

/-! ## The invariant -/

/-- The arrays hold MAXDIGITS entries and the display length is at most that (spec/10_state.md R20, R31). -/
def Sized (s : State) : Prop := Memory.wf s ∧ s.len ≤ s.cfg.maxDigits

/-- The sequencer registers fit their state (spec/43_scan_sequencer.md R211). -/
def SeqFits (s : State) : Prop :=
  match s.seq.state with
  | .idle => s.seq.idx = 0 ∧ s.seq.cnt = 0 ∧ s.seq.lit = false
  | .slot => s.seq.idx.toNat < s.len ∧ 1 ≤ s.seq.cnt.toNat ∧ s.seq.cnt.toNat ≤ s.dwell.toNat
  | .gap => s.seq.idx = s.dlen ∧ 1 ≤ s.seq.cnt.toNat ∧ s.seq.cnt.toNat ≤ s.dwell.toNat ∧ s.seq.lit = false

/-- Before INIT the buffer, the flags, RESULT, PEND and the sequencer hold their reset values: every command that could
change them was rejected (spec/44_lifecycle.md R242, R243). -/
def Untouched (s : State) : Prop :=
  s.fb = List.replicate s.cfg.maxDigits blank ∧ s.en = List.replicate s.cfg.maxDigits true ∧
    s.bl = List.replicate s.cfg.maxDigits false ∧ s.result = 0 ∧ s.pend = false ∧ s.seq = SeqRegs.reset

/-- What holds after every clock cycle of a block with legal parameters. -/
structure Inv (s : State) : Prop where
  /-- The parameters are in the ranges of spec/00_scope.md R5. -/
  legal : s.cfg.legal
  /-- The arrays are MAXDIGITS long and DLEN ≤ MAXDIGITS. -/
  sized : Sized s
  /-- 1 ≤ DLEN (spec/10_state.md R31). -/
  lenPos : 1 ≤ s.len
  /-- 1 ≤ DWELL (R31). -/
  dwellPos : 1 ≤ s.dwell.toNat
  /-- 1 ≤ IV (R34). -/
  ivPos : 1 ≤ s.iv.toNat
  /-- The prescaler counts 0..CLK_PER_MS-1 (R43). -/
  prescBound : s.presc < s.cfg.clkPerMs
  /-- The configuration phase has touched nothing. -/
  untouched : s.init = false → Untouched s
  /-- The entries from DLEN on keep their reset values (R20). -/
  beyond : ∀ i, s.len ≤ i → i < s.cfg.maxDigits → fbAt s i = blank ∧ enAt s i = true ∧ blAt s i = false
  /-- The sequencer registers fit their state. -/
  seqFits : SeqFits s

/-! ## Outcomes -/

/-- The operation was rejected: STATUS.REJ is 1 and nothing else has changed (spec/60_exceptions.md R260). -/
def Rejected (s t : State) : Prop := t = { s with rej := true }

/-- `k` clock cycles from `s`. -/
def run (k : Nat) (s : State) : Result :=
  match k with
  | 0 => .next s
  | k + 1 =>
    match step s with
    | .next t => run k t
    | .fault r => .fault r
    | .refused r => .refused r

/-- The host asserts no reset in the cycles it has planned. -/
def NoReset (s : State) : Prop := ∀ c ∈ s.inputs, c.rst = false

/-! ## The events that set REJ (spec/60_exceptions.md R261) -/

/-- A command's own cause of REJ once the lifecycle gate lets it through: events 4, 5, 6, 12 and 13. -/
def commandFlaw (s : State) : Instr → Prop
  | .setByte d _ => ¬ d < s.len
  | .setDigit d _ => ¬ d < s.len
  | .setChar d _ => ¬ d < s.len
  | .setSeg d k _ => ¬ d < s.len ∨ segValid s k = false
  | .enDigit d _ => ¬ d < s.len
  | .blinkDigit d _ => ¬ d < s.len
  | .setInt _ =>
    ¬ (-((10 : Int) ^ (s.len - 1) - 1) ≤ s.arg.toInt ∧ s.arg.toInt ≤ (10 : Int) ^ s.len - 1)
  | .getByte d => ¬ d < s.len
  | .getSeg d k => ¬ d < s.len ∨ segValid s k = false
  | .segSet _ k _ => segValid s k = false
  | .segTest _ k => segValid s k = false
  | .nop => False
  | .init => False
  | .clear => False
  | .refresh => False
  | .shift _ => False
  | .enAll _ => False
  | .blinkAll _ => False
  | .glyphDigit _ => False
  | .glyphChar _ => False
  | .glyphMinus => False
  | .glyphDot => False
  | .invert _ => False
  | .inRange => False

/-- A command sets REJ: events 1, 2, 4, 5, 6, 12 and 13. -/
def commandRejects (s : State) (i : Instr) : Prop :=
  (s.init = false ∧ i ≠ .nop ∧ i ≠ .init) ∨ (s.init = true ∧ (i = .init ∨ commandFlaw s i))

/-- A bus operation sets REJ: the complete list of R261. -/
def rejEvent (s : State) : BusOp → Prop
  | .idle => False
  | .read _ => False
  | .write a w =>
    (a = 0x0 ∧ ((∃ e, decode w = .error e) ∨ ∃ i, decode w = .ok i ∧ commandRejects s i)) ∨
    (a = 0x4 ∧ (s.init = true ∨ ¬ (1 ≤ (w.extractLsb' 4 4).toNat ∧ (w.extractLsb' 4 4).toNat ≤ s.cfg.maxDigits) ∨
      w.extractLsb' 8 8 = 0#8)) ∨
    (a = 0x5 ∧ w.extractLsb' 0 16 = 0#16) ∨
    (a = 0x6 ∧ s.init = true) ∨
    a = 0x2 ∨ 0x8 ≤ a.toNat

/-! ## Scanning -/

/-- E: the enabled digits of the display (spec/43_scan_sequencer.md R212). -/
def enabledCount (s : State) : Nat := ((List.range s.len).filter fun i => enAt s i).length

/-- The length of a pass in clock cycles, (E + 1) × DWELL × CLK_PER_MS (R212, spec/70_reset_and_hazards.md R301). -/
def passCycles (s : State) : Nat := (enabledCount s + 1) * s.dwell.toNat * s.cfg.clkPerMs

/-- The clock cycles until the slot or gap in progress ends. -/
def cyclesLeft (s : State) : Nat := (s.seq.cnt.toNat - 1) * s.cfg.clkPerMs + (s.cfg.clkPerMs - s.presc)

/-- The state is the one right after a tick cycle in which a pass began: its first slot, or its gap when no digit is
enabled, with the whole dwell left. -/
def AtPassStart (s : State) : Prop :=
  s.presc = 0 ∧ s.seq.cnt = s.dwell ∧
    match nextEnabled s 0 with
    | some j => s.seq.state = .slot ∧ s.seq.idx.toNat = j
    | none => s.seq.state = .gap

/-! ## Encoding -/

/-- The bits that each command reads below its opcode, from the "fields" column and the flag bits of
spec/30_encoding.md R95, R97. -/
def usedBits (op : Byte) : Word :=
  match op.toNat with
  | 0x10 => 0x00FF00FF
  | 0x11 => 0x00FF00FF
  | 0x12 => 0x00FF00FF
  | 0x13 => 0x00FFFF01
  | 0x14 => 0x00000001
  | 0x15 => 0x000000FF
  | 0x20 => 0x00FF0001
  | 0x21 => 0x00FF0001
  | 0x22 => 0x00000001
  | 0x23 => 0x00000001
  | 0x30 => 0x00FF0000
  | 0x31 => 0x00FFFF00
  | 0x32 => 0x000000FF
  | 0x33 => 0x000000FF
  | 0x36 => 0x0001FFFF
  | 0x37 => 0x0000FFFF
  | 0x38 => 0x000000FF
  | _ => 0x00000000

/-- The reserved opcodes, as the ranges of spec/30_encoding.md R98. -/
def reservedOp (op : Byte) : Bool :=
  let n := op.toNat
  (0x04 ≤ n && n ≤ 0x0F) || (0x16 ≤ n && n ≤ 0x1F) || (0x24 ≤ n && n ≤ 0x2F) || 0x3A ≤ n

end Sys2Proof.Machine
end

