-- ==== Sys2Proof/WellFormed.lean ====
section
/-!
DEFINITION. What a command's fields can hold (spec/30_encoding.md R91 to R96): an index or a digit value is an unsigned
8-bit number, a shift a signed 8-bit one. Bytes and flags fit by their types. A well-formed command may still be rejected
when it runs (an index at or above DLEN, R150): that is its meaning's business, not a matter of form.
-/

namespace Sys2Proof

/-- An operand of the unsigned 8-bit fields D, S or B (R92, R93, R94). -/
def fitsField (n : Nat) : Bool := n < 256

/-- The signed shift operand of SHIFT, −128..127 (R96). -/
def fitsShift (k : Int) : Bool := -128 ≤ k && k ≤ 127

/-- Every operand is one that the command's encoding can hold. -/
def Instr.wellFormed : Instr → Bool
  | .nop => true
  | .init => true
  | .clear => true
  | .refresh => true
  | .setByte d _ => fitsField d
  | .setDigit d n => fitsField d && fitsField n
  | .setChar d _ => fitsField d
  | .setSeg d k _ => fitsField d && fitsField k
  | .setInt _ => true
  | .shift k => fitsShift k
  | .enDigit d _ => fitsField d
  | .blinkDigit d _ => fitsField d
  | .enAll _ => true
  | .blinkAll _ => true
  | .getByte d => fitsField d
  | .getSeg d k => fitsField d && fitsField k
  | .glyphDigit n => fitsField n
  | .glyphChar _ => true
  | .glyphMinus => true
  | .glyphDot => true
  | .segSet _ k _ => fitsField k
  | .segTest _ k => fitsField k
  | .invert _ => true
  | .inRange => true

end Sys2Proof
end

