-- ==== Sys2Proof/Certificates/Slice0/Obligations.lean ====
section
/-!
DEFINITION. The statements about this model, in the order of OBLIGATIONS.json. L is `s.len`, the display length. A
statement about a command says its words (every word with its opcode, whatever stands in the fields it does not read),
its effect with everything it leaves, and its rejection; the equation `t = { s with fb := t.fb }` says that t differs from s
in fb at most. What the host does in a cycle is `thisInput s`, the first entry of the model's field `inputs`; past the end of
that list the host is idle (the model's choice, notes/assumptions/1.md).
-/

open Sys2Proof Sys2Proof.Machine

/-! ## Decoding and encoding -/

/-- Every well-formed command comes back from its own word (R97, R102). -/
def Obligations.DecodeEncodeAgree : Prop :=
  ∀ i : Instr, i.wellFormed = true → decode (encode i) = .ok i

/-- Whatever the decoder answers is well formed (the field widths of R91). -/
def Obligations.DecodedCommandsAreWellFormed : Prop :=
  ∀ (w : Word) (i : Instr), decode w = .ok i → i.wellFormed = true

/-- R98: the machine rejects a word with an opcode outside the map: no state changes except STATUS.REJ. That the decoder
refuses exactly the words with such an opcode is the model's choice: a reserved opcode is no instruction
(notes/assumptions/14.md). -/
def Obligations.ReservedOpcodesAreRejected : Prop :=
  ∀ w : Word,
    ((∃ e, decode w = .error e) ↔ reservedOp (fieldOp w) = true) ∧
    (reservedOp (fieldOp w) = true → ∀ s : State, writeReg 0x0 w s = .next { s with rej := true })

/-- R99: a field that a command does not read, and the ignored bits of its flags, change nothing. -/
def Obligations.UnusedFieldsAreIgnored : Prop :=
  ∀ w v : Word, fieldOp w = fieldOp v →
    w &&& usedBits (fieldOp w) = v &&& usedBits (fieldOp w) → decode w = decode v

/-- The example words of R102, each decoded to the command of its line. -/
def Obligations.ExampleWordsDecode : Prop :=
  decode 0x01000000 = .ok .init ∧ decode 0x1002005B = .ok (.setByte 2 0x5B) ∧
  decode 0x11000007 = .ok (.setDigit 0 7) ∧ decode 0x12010048 = .ok (.setChar 1 0x48) ∧
  decode 0x13030701 = .ok (.setSeg 3 7 true) ∧ decode 0x14000001 = .ok (.setInt true) ∧
  decode 0x150000FF = .ok (.shift (-1)) ∧ decode 0x20010000 = .ok (.enDigit 1 false) ∧
  decode 0x21030001 = .ok (.blinkDigit 3 true) ∧ decode 0x22000001 = .ok (.enAll true) ∧
  decode 0x23000000 = .ok (.blinkAll false) ∧ decode 0x30030000 = .ok (.getByte 3) ∧
  decode 0x31000600 = .ok (.getSeg 0 6) ∧ decode 0x36010300 = .ok (.segSet 0x00 3 true) ∧
  decode 0x37000780 = .ok (.segTest 0x80 7) ∧ decode 0x39000000 = .ok .inRange

/-! ## The clock cycle -/

/-- A step runs the command that the host writes to CMD (R90, R246): the command's writes, computed from the state before
the edge, joined with the time base, the sequencer and the merge of pend. The model's choices in it: pend is lowered for the
command, so that its pend is R246's pend_set (notes/assumptions/15.md); the host's cycles and the read data are the fields
inputs and rdata (notes/assumptions/1.md and 2.md). -/
def Obligations.StepRunsTheDecodedCommand : Prop :=
  ∀ (s : State) (w : Word) (i : Instr) (rest : List HostCycle),
    s.inputs = writeCycle 0x0 w :: rest → decode w = .ok i →
    ∃ e, exec i { s with pend := false } = .next e ∧
      step s = .next
        { e with
          presc := if s.presc = s.cfg.clkPerMs - 1 then 0 else s.presc + 1
          nowMs := if s.presc = s.cfg.clkPerMs - 1 then s.nowMs + 1 else s.nowMs
          seq := seqStep s
          pend := if e.pend then true else if passStarts s then false else s.pend
          inputs := rest
          rdata := 0 }

/-- R280: in a reset cycle the state becomes the reset state of R50 whatever it was and whatever the bus carries, and rdata
is 0. -/
def Obligations.ResetCycleGivesTheResetState : Prop :=
  ∀ (s : State) (op : BusOp) (rest : List HostCycle), s.inputs = { rst := true, op := op } :: rest →
    ∃ t, step s = .next t ∧
      t.fb = List.replicate s.cfg.maxDigits 0x00 ∧ t.en = List.replicate s.cfg.maxDigits true ∧
      t.bl = List.replicate s.cfg.maxDigits false ∧ t.arg = 0 ∧ t.result = 0 ∧
      t.init = false ∧ t.rej = false ∧ t.pend = false ∧ t.pol = false ∧ t.hasDp = true ∧
      t.dlen = BitVec.ofNat 4 s.cfg.maxDigits ∧ t.dwell = 2 ∧ t.bright = 200 ∧ t.iv = 250 ∧
      t.unkGlyph = s.cfg.unkGlyphReset ∧ t.cont = true ∧ t.nowMs = 0 ∧ t.presc = 0 ∧
      t.seq = { state := .idle, idx := 0, cnt := 0, lit := false, latch := 0 } ∧
      t.rdata = 0

/-- The reset state meets the invariant (with the model's choice of the build, notes/assumptions/3.md). -/
def Obligations.ResetStateMeetsInv : Prop := Inv State.reset

/-- Every clock cycle keeps the invariant: legal lengths and intervals, the sequencer registers of R211, nothing touched
before INIT (R243), and the entries at DLEN and above at their reset values (R20). -/
def Obligations.StepKeepsInv : Prop :=
  ∀ s t : State, Inv s → step s = .next t → Inv t

/-- R248: the block never halts. -/
def Obligations.EveryStepGoesOn : Prop := ∀ s : State, ∃ t, step s = .next t

/-- R246: the bus operation's writes and the sequencer's are computed from the same state and do not meet, so doing the
clock's part first and the bus operation after it gives the same cycle. -/
def Obligations.BusAndSequencerOrderDoesNotMatter : Prop :=
  ∀ (s : State) (op : BusOp) (rest : List HostCycle), s.inputs = { rst := false, op := op } :: rest →
    step s = busEffect op
      { s with
        presc := nextPresc s
        nowMs := nextNow s
        seq := seqStep s
        pend := !passStarts s && s.pend
        inputs := rest
        rdata := readData s op }

/-- R81, R247: what the bus does in a cycle is invisible to the sequencer and the time base of that cycle. -/
def Obligations.SequencerIgnoresTheBusOfItsCycle : Prop :=
  ∀ (s : State) (op op' : BusOp) (rest : List HostCycle) (t t' : State),
    step { s with inputs := { rst := false, op := op } :: rest } = .next t →
    step { s with inputs := { rst := false, op := op' } :: rest } = .next t' →
    t.seq = t'.seq ∧ t.presc = t'.presc ∧ t.nowMs = t'.nowMs

/-- R210: the sequencer never writes the frame buffer, the flags, a register other than its own, or REJ. In a cycle without
a bus operation only the time base, the sequencer and its clear of pend act. That a host with nothing left to do is idle is
the model's choice (notes/assumptions/1.md). -/
def Obligations.IdleCycleMovesOnlyTimeAndSequencer : Prop :=
  ∀ s : State, (s.inputs = [] ∨ ∃ rest, s.inputs = idleCycle :: rest) →
    step s = .next
      { s with
        presc := if s.presc = s.cfg.clkPerMs - 1 then 0 else s.presc + 1
        nowMs := if s.presc = s.cfg.clkPerMs - 1 then s.nowMs + 1 else s.nowMs
        seq := seqStep s
        pend := !passStarts s && s.pend
        inputs := s.inputs.tail
        rdata := 0 }

/-- R72: a read shows the register before the edge and changes no more than an idle cycle; CMD and the reserved addresses
read 0; rdata is 0 in a cycle that is no read. -/
def Obligations.ReadsHaveNoSideEffect : Prop :=
  (∀ (s t : State) (a : BitVec 4) (w : Word) (rest : List HostCycle),
    step { s with inputs := writeCycle a w :: rest } = .next t → t.rdata = 0) ∧
  ∀ (s : State) (a : BitVec 4) (rest : List HostCycle) (t u : State),
    step { s with inputs := { rst := false, op := .read a } :: rest } = .next t →
    step { s with inputs := idleCycle :: rest } = .next u →
    u.rdata = 0 ∧ t = { u with rdata := regValue s a } ∧
    ((a = 0x0 ∨ 0xC ≤ a.toNat) → t.rdata = 0)

/-! ## Lifecycle -/

/-- R240: NOP has no effect and is never rejected; a word with its opcode is NOP whatever its fields hold. -/
def Obligations.NopHasNoEffect : Prop :=
  (∀ w : Word, fieldOp w = 0x00 → decode w = .ok .nop) ∧ ∀ s : State, exec .nop s = .next s

/-- R242: INIT sets init once, changing nothing else. R244: a second INIT is rejected. -/
def Obligations.InitIsAcceptedOnce : Prop :=
  (∀ w : Word, fieldOp w = 0x01 → decode w = .ok .init) ∧
  (∀ s : State, s.init = false → exec .init s = .next { s with init := true }) ∧
  (∀ s : State, s.init = true → exec .init s = .next { s with rej := true })

/-- R243: before INIT every command other than NOP and INIT is rejected, queries included. -/
def Obligations.CommandsBeforeInitAreRejected : Prop :=
  ∀ (i : Instr) (s : State), s.init = false → i ≠ .nop → i ≠ .init → exec i s = .next { s with rej := true }

/-- R245: REFRESH requests one pass: PEND is 1 after its cycle even when the sequencer starts a pass in it. From IDLE with
CONT = 0 the next cycle starts the pass and clears PEND, whatever else the host does in it. The IDLE row of R210 (R242, R298):
after INIT, with CONT = 1 or a request pending, any cycle starts a pass and, but for a REFRESH in it, clears PEND; otherwise
the sequencer stays as it is and takes no request. -/
def Obligations.RefreshRequestsOnePass : Prop :=
  (∀ w : Word, fieldOp w = 0x03 → decode w = .ok .refresh) ∧
  (∀ s : State, s.init = true → exec .refresh s = .next { s with pend := true }) ∧
  (∀ s : State, s.init = false → exec .refresh s = .next { s with rej := true }) ∧
  (∀ (s : State) (w : Word) (rest : List HostCycle), s.init = true → fieldOp w = 0x03 →
    s.inputs = writeCycle 0x0 w :: rest →
    ∃ t, step s = .next t ∧ t.pend = true ∧ t.seq = seqStep s ∧
      (s.seq.state = .idle → s.cont = false → s.pend = false → t.seq = s.seq ∧
        ∀ u, (thisInput t).rst = false → (∀ v, (thisInput t).op = .write 0x0 v → fieldOp v ≠ 0x03) →
          step t = .next u → u.pend = false ∧ u.seq.state ≠ .idle ∧ u.seq = beginSlot t 0)) ∧
  (∀ s t : State, s.seq.state = .idle → (thisInput s).rst = false → step s = .next t →
    (s.init = true → s.cont = true ∨ s.pend = true →
      t.seq = beginSlot s 0 ∧
        ((∀ v, (thisInput s).op = .write 0x0 v → fieldOp v ≠ 0x03) → t.pend = false)) ∧
    (¬ (s.init = true ∧ (s.cont = true ∨ s.pend = true)) →
      t.seq = s.seq ∧
        ((∀ v, (thisInput s).op = .write 0x0 v → fieldOp v ≠ 0x03) → t.pend = s.pend)))

/-- R267: only INIT leaves the configuration phase, and only a reset returns to it. -/
def Obligations.OnlyInitAndResetChangeThePhase : Prop :=
  ∀ s t : State, step s = .next t →
    (s.init = false → t.init = true →
      ∃ w rest, s.inputs = writeCycle 0x0 w :: rest ∧ fieldOp w = 0x01) ∧
    (s.init = true → t.init = false → ∃ op rest, s.inputs = { rst := true, op := op } :: rest)

/-- R33, R35, R79: after INIT nothing but a reset changes CONFIG or UNK_GLYPH. -/
def Obligations.ConfigurationIsFrozenAfterInit : Prop :=
  ∀ s t : State, s.init = true → (thisInput s).rst = false → step s = .next t →
    t.init = true ∧ t.pol = s.pol ∧ t.hasDp = s.hasDp ∧ t.dlen = s.dlen ∧ t.dwell = s.dwell ∧ t.bright = s.bright ∧
      t.unkGlyph = s.unkGlyph

/-- No step, a reset cycle among them, changes a parameter (R5, R84), and each takes one cycle of what the host has planned
(the model's own fields cfg and inputs, notes/assumptions/1.md and 3.md). -/
def Obligations.ParametersStayAndInputsAdvance : Prop :=
  ∀ s t : State, step s = .next t → t.cfg = s.cfg ∧ t.inputs = s.inputs.tail

/-! ## Rejection -/

/-- R260, R261: in a cycle without reset REJ is set exactly by the listed events, and is cleared by nothing but a STATUS
write with bit 2 set. -/
def Obligations.RejIsSetExactlyByTheListedEvents : Prop :=
  ∀ s t : State, (thisInput s).rst = false → step s = .next t →
    (t.rej = true ↔
      rejEvent s (thisInput s).op ∨
        (s.rej = true ∧ ¬ ∃ w, (thisInput s).op = .write 0x3 w ∧ w.getLsbD 2 = true))

/-- R261, its events with no effect besides REJ: a command that sets REJ (events 1, 2, 4, 5, 6) and is none of the four
queries of events 12 and 13, and any bus operation that sets REJ (events 3, 7, 9, 10, 11 too) and is neither such a query nor
the CONFIG write before INIT of event 8, changes nothing but REJ. -/
def Obligations.RejectedCommandsHaveNoOtherEffect : Prop :=
  (∀ (i : Instr) (s : State), commandRejects s i →
    (∀ d, i ≠ .getByte d) → (∀ d k, i ≠ .getSeg d k) → (∀ b k on, i ≠ .segSet b k on) → (∀ b k, i ≠ .segTest b k) →
    exec i s = .next { s with rej := true }) ∧
  ∀ (op : BusOp) (s : State), rejEvent s op →
    (∀ w, op = .write 0x4 w → s.init = true) →
    (∀ w i, op = .write 0x0 w → decode w = .ok i →
      (∀ d, i ≠ .getByte d) ∧ (∀ d k, i ≠ .getSeg d k) ∧ (∀ b k on, i ≠ .segSet b k on) ∧ (∀ b k, i ≠ .segTest b k)) →
    busEffect op s = .next { s with rej := true }

/-! ## Registers -/

/-- R37: the bits of STATUS as read. -/
def Obligations.StatusReadsItsBits : Prop :=
  ∀ s : State,
    (regValue s 0x3).getLsbD 0 = s.init ∧ (regValue s 0x3).getLsbD 1 = (s.seq.state != .idle) ∧
    (regValue s 0x3).getLsbD 2 = s.rej ∧ (regValue s 0x3).getLsbD 3 = s.pend ∧
    ∀ k, 4 ≤ k → (regValue s 0x3).getLsbD k = false

/-- R31, R47: the fields of CONFIG and SEQ as read, reserved bits 0. -/
def Obligations.ConfigAndSeqReadTheirFields : Prop :=
  ∀ s : State,
    ((regValue s 0x4).getLsbD 0 = s.pol ∧ (regValue s 0x4).getLsbD 1 = s.hasDp ∧
      (regValue s 0x4).extractLsb' 2 2 = 0#2 ∧ (regValue s 0x4).extractLsb' 4 4 = s.dlen ∧
      (regValue s 0x4).extractLsb' 8 8 = s.dwell ∧ (regValue s 0x4).extractLsb' 16 8 = s.bright ∧
      (regValue s 0x4).extractLsb' 24 8 = 0#8) ∧
    ((regValue s 0xB).extractLsb' 0 2 =
        (match s.seq.state with | .idle => 0#2 | .slot => 1#2 | .gap => 2#2) ∧
      (regValue s 0xB).getLsbD 2 = s.seq.lit ∧ (regValue s 0xB).getLsbD 3 = false ∧
      (regValue s 0xB).extractLsb' 4 4 = s.seq.idx ∧ (regValue s 0xB).extractLsb' 8 8 = s.seq.cnt ∧
      (regValue s 0xB).extractLsb' 16 8 = s.seq.latch ∧ (regValue s 0xB).extractLsb' 24 8 = 0#8)

/-- R40, R41: bit i of EN_MASK and BL_MASK reads the flag of digit i, and 0 from MAXDIGITS on. -/
def Obligations.MasksMirrorTheFlags : Prop :=
  ∀ s : State, Memory.wf s → s.cfg.legal → ∀ i : Nat,
    (regValue s 0x9).getLsbD i = (decide (i < s.cfg.maxDigits) && enAt s i) ∧
    (regValue s 0xA).getLsbD i = (decide (i < s.cfg.maxDigits) && blAt s i)

/-- R28, R30, R35, R39, R42: what CMD, RESULT, UNK_GLYPH, NOW_MS and the reserved addresses read as; the reserved bits of
UNK_GLYPH read 0. -/
def Obligations.AnswerAndTimeRegistersRead : Prop :=
  ∀ s : State,
    regValue s 0x0 = 0 ∧ regValue s 0x2 = s.result ∧ regValue s 0x8 = s.nowMs ∧
    (regValue s 0x6).extractLsb' 0 8 = s.unkGlyph ∧ (regValue s 0x6).extractLsb' 8 24 = 0#24 ∧
    ∀ a : BitVec 4, 0xC ≤ a.toNat → regValue s a = 0

/-- R29, R34, R36, R38: writes to ARG, BLINK_IV, CTRL and STATUS, before INIT and after it, and what ARG, BLINK_IV and CTRL
then read as. -/
def Obligations.OpenRegistersTakeTheirWrites : Prop :=
  ∀ (s : State) (w : Word),
    (writeReg 0x1 w s = .next { s with arg := w } ∧ regValue { s with arg := w } 0x1 = w) ∧
    (w.extractLsb' 0 16 ≠ 0#16 → writeReg 0x5 w s = .next { s with iv := w.extractLsb' 0 16 }) ∧
    (w.extractLsb' 0 16 = 0#16 → writeReg 0x5 w s = .next { s with rej := true }) ∧
    (regValue s 0x5).extractLsb' 0 16 = s.iv ∧ (regValue s 0x5).extractLsb' 16 16 = 0#16 ∧
    writeReg 0x7 w s = .next { s with cont := w.getLsbD 0 } ∧
    (∀ k, (regValue s 0x7).getLsbD k = (decide (k = 0) && s.cont)) ∧
    (w.getLsbD 2 = true → writeReg 0x3 w s = .next { s with rej := false }) ∧
    (w.getLsbD 2 = false → writeReg 0x3 w s = .next s)

/-- R32, R35: before INIT a CONFIG write updates each legal field on its own, an illegal DLEN or DWELL keeping its value
with REJ set, and UNK_GLYPH takes the low byte. -/
def Obligations.ConfigurationWritesBeforeInit : Prop :=
  ∀ (s : State) (w : Word), s.init = false →
    (∃ t, writeReg 0x4 w s = .next t ∧ t.pol = w.getLsbD 0 ∧ t.hasDp = w.getLsbD 1 ∧
      t.bright = w.extractLsb' 16 8 ∧
      (1 ≤ (w.extractLsb' 4 4).toNat ∧ (w.extractLsb' 4 4).toNat ≤ s.cfg.maxDigits → t.dlen = w.extractLsb' 4 4) ∧
      (¬ (1 ≤ (w.extractLsb' 4 4).toNat ∧ (w.extractLsb' 4 4).toNat ≤ s.cfg.maxDigits) → t.dlen = s.dlen ∧ t.rej = true) ∧
      (w.extractLsb' 8 8 ≠ 0#8 → t.dwell = w.extractLsb' 8 8) ∧
      (w.extractLsb' 8 8 = 0#8 → t.dwell = s.dwell ∧ t.rej = true) ∧
      (1 ≤ (w.extractLsb' 4 4).toNat → (w.extractLsb' 4 4).toNat ≤ s.cfg.maxDigits → w.extractLsb' 8 8 ≠ 0#8 →
        t.rej = s.rej) ∧
      t = { s with pol := t.pol, hasDp := t.hasDp, dlen := t.dlen, dwell := t.dwell, bright := t.bright, rej := t.rej }) ∧
    writeReg 0x6 w s = .next { s with unkGlyph := w.extractLsb' 0 8 }

/-- R33, R42: a write to CONFIG after INIT, and a write to RESULT, NOW_MS, EN_MASK, BL_MASK, SEQ or a reserved address at
any time, is rejected: no state changes except REJ. UNK_GLYPH after INIT likewise (R35). -/
def Obligations.LockedAndReadOnlyWritesAreRejected : Prop :=
  ∀ (s : State) (w : Word) (a : BitVec 4),
    (a = 0x2 ∨ 0x8 ≤ a.toNat → writeReg a w s = .next { s with rej := true }) ∧
    (s.init = true → a = 0x4 ∨ a = 0x6 → writeReg a w s = .next { s with rej := true })

/-! ## The glyph encoder -/

/-- R112, R130: GLYPH_DIGIT answers the table's entry, and blank above 9, without REJ. -/
def Obligations.GlyphDigitAnswersTheTable : Prop :=
  (∀ w : Word, fieldOp w = 0x32 → decode w = .ok (.glyphDigit (fieldB w).toNat)) ∧
  ∀ (n : Nat) (s : State),
    (s.init = true → ∀ h : n < 10, exec (.glyphDigit n) s = .next { s with result := (s.cfg.digitGlyph[n]).setWidth 32 }) ∧
    (s.init = true → 10 ≤ n → exec (.glyphDigit n) s = .next { s with result := 0 }) ∧
    (s.init = false → exec (.glyphDigit n) s = .next { s with rej := true })

/-- R117, R131: GLYPH_CHAR answers the letter's entry under case folding, the digit's, the punctuation entry of R115 and
R116, or UNK_GLYPH, never with REJ. The punctuation codes stand as R115 lists them. -/
def Obligations.GlyphCharAnswersTheTables : Prop :=
  (∀ w : Word, fieldOp w = 0x33 → decode w = .ok (.glyphChar (fieldB w))) ∧
  (∀ (c : Byte) (s : State), s.init = false → exec (.glyphChar c) s = .next { s with rej := true }) ∧
  ∀ (c : Byte) (s : State), s.init = true →
    ∃ g : Byte, exec (.glyphChar c) s = .next { s with result := g.setWidth 32 } ∧
      (∀ k : Fin 26, c.toNat = 0x41 + k.val ∨ c.toNat = 0x61 + k.val → g = s.cfg.letterGlyph[k]) ∧
      (∀ n : Fin 10, c.toNat = 0x30 + n.val → g = s.cfg.digitGlyph[n]) ∧
      (c = 0x2E → g = 0x80) ∧ (c = 0x2D → g = 0x40) ∧ (c = 0x20 → g = 0x00) ∧
      (∀ p : Fin 21,
        c = ([0x21, 0x3F, 0x28, 0x29, 0x5B, 0x5D, 0x2F, 0x5C, 0x2A, 0xB0, 0x22, 0x27, 0x2B, 0x5F, 0x3A, 0x3B, 0x3D,
          0x3E, 0x3C, 0x5E, 0x2C] : List Byte).getD p.val 0 → g = s.cfg.punctOpen[p]) ∧
      (c.toNat < 0x20 ∨ c = 0x23 ∨ c = 0x24 ∨ c = 0x25 ∨ c = 0x26 ∨ c = 0x40 ∨ c = 0x60 ∨ c = 0x7B ∨ c = 0x7C ∨ c = 0x7D ∨
        c = 0x7E ∨ c = 0x7F ∨ (0x80 ≤ c.toNat ∧ c ≠ 0xB0) → g = s.unkGlyph)

/-- R118: a letter's two cases have the same glyph. -/
def Obligations.CaseFoldingKeepsTheGlyph : Prop :=
  ∀ (s : State) (c : Byte), 0x41 ≤ c.toNat → c.toNat ≤ 0x5A → charGlyph s c = charGlyph s (c + 0x20)

/-- R132, R133, R136: GLYPH_MINUS, GLYPH_DOT and INVERT, whatever HAS_DP and POL are. -/
def Obligations.FixedGlyphsAndInversion : Prop :=
  (∀ w : Word, (fieldOp w = 0x34 → decode w = .ok .glyphMinus) ∧ (fieldOp w = 0x35 → decode w = .ok .glyphDot) ∧
    (fieldOp w = 0x38 → decode w = .ok (.invert (fieldB w)))) ∧
  (∀ s : State, s.init = true →
    exec .glyphMinus s = .next { s with result := 0x00000040 } ∧
    exec .glyphDot s = .next { s with result := 0x00000080 } ∧
    ∀ b : Byte, exec (.invert b) s = .next { s with result := (255 - b).setWidth 32 }) ∧
  (∀ s : State, s.init = false →
    exec .glyphMinus s = .next { s with rej := true } ∧ exec .glyphDot s = .next { s with rej := true } ∧
    ∀ b : Byte, exec (.invert b) s = .next { s with rej := true })

/-- R134, R135: SEG_SET and SEG_TEST, bit by bit; an invalid index answers b, or 0, and sets REJ. Valid is s < 7, or s = 7
with HAS_DP = 1 (R93, R120). -/
def Obligations.SegSetAndSegTestAnswer : Prop :=
  (∀ w : Word,
    (fieldOp w = 0x36 → decode w = .ok (.segSet (fieldB w) (fieldS w).toNat (w.getLsbD 16))) ∧
    (fieldOp w = 0x37 → decode w = .ok (.segTest (fieldB w) (fieldS w).toNat))) ∧
  (∀ (s : State) (b : Byte) (k : Nat) (on : Bool), s.init = true →
    (k < 7 ∨ (k = 7 ∧ s.hasDp = true) →
      (∃ r : Byte, exec (.segSet b k on) s = .next { s with result := r.setWidth 32 } ∧
        r.getLsbD k = on ∧ ∀ j, j ≠ k → r.getLsbD j = b.getLsbD j) ∧
      exec (.segTest b k) s = .next { s with result := if b.getLsbD k then 1 else 0 }) ∧
    (¬ (k < 7 ∨ (k = 7 ∧ s.hasDp = true)) →
      exec (.segSet b k on) s = .next { s with result := b.setWidth 32, rej := true } ∧
      exec (.segTest b k) s = .next { s with result := 0, rej := true })) ∧
  (∀ (s : State) (b : Byte) (k : Nat) (on : Bool), s.init = false →
    exec (.segSet b k on) s = .next { s with rej := true } ∧ exec (.segTest b k) s = .next { s with rej := true })

/-- R122: segmentActive reads the bit of a valid index and the sentinel 0 of any other; the round trip of the segment
functions, for every valid index and either polarity. -/
def Obligations.SegmentRoundTrip : Prop :=
  ∀ (s : State) (b : Byte) (k : Nat),
    (k < 7 ∨ (k = 7 ∧ s.hasDp = true) →
      segmentActive s b k = b.getLsbD k ∧ ∀ on, segmentActive s (setSegment s b k on) k = on) ∧
    (¬ (k < 7 ∨ (k = 7 ∧ s.hasDp = true)) → segmentActive s b k = false)

/-- R124, R137: IN_RANGE answers whether the signed value of ARG fits the display; never REJ after INIT. -/
def Obligations.InRangeAnswersTheBounds : Prop :=
  (∀ w : Word, fieldOp w = 0x39 → decode w = .ok .inRange) ∧
  (∀ s : State, s.init = true →
    exec .inRange s = .next
      { s with result :=
          if -((10 : Int) ^ (s.len - 1) - 1) ≤ s.arg.toInt ∧ s.arg.toInt ≤ (10 : Int) ^ s.len - 1 then 1 else 0 }) ∧
  (∀ s : State, s.init = false → exec .inRange s = .next { s with rej := true })

/-! ## The frame buffer -/

/-- R152 to R154: SET_BYTE, SET_DIGIT and SET_CHAR write one digit of the display, with the byte, the digit's glyph and the
character's glyph, and leave every other byte and everything else; an index at or above DLEN is rejected. -/
def Obligations.SingleDigitWrites : Prop :=
  (∀ w : Word,
    (fieldOp w = 0x10 → decode w = .ok (.setByte (fieldD w).toNat (fieldB w))) ∧
    (fieldOp w = 0x11 → decode w = .ok (.setDigit (fieldD w).toNat (fieldB w).toNat)) ∧
    (fieldOp w = 0x12 → decode w = .ok (.setChar (fieldD w).toNat (fieldB w)))) ∧
  ∀ (s : State) (d n : Nat) (c : Byte) (i : Instr) (v : Byte), Sized s →
    ((i = .setByte d c ∧ v = c) ∨ (i = .setDigit d n ∧ v = if n ≤ 9 then digitGlyph s.cfg n else 0x00) ∨
      (i = .setChar d c ∧ v = charGlyph s c)) →
    (s.init = true → d < s.len →
      ∃ t, exec i s = .next t ∧ fbAt t d = v ∧ (∀ a, a ≠ d → fbAt t a = fbAt s a) ∧
        t.fb.length = s.fb.length ∧ t = { s with fb := t.fb }) ∧
    (s.init = true → ¬ d < s.len → exec i s = .next { s with rej := true }) ∧
    (s.init = false → exec i s = .next { s with rej := true })

/-- R155: SET_SEG writes one segment of one digit; the other seven bits, the other bytes and everything else stay; an
invalid digit or segment index is rejected. -/
def Obligations.SetSegWritesOneBit : Prop :=
  (∀ w : Word, fieldOp w = 0x13 → decode w = .ok (.setSeg (fieldD w).toNat (fieldS w).toNat (w.getLsbD 0))) ∧
  ∀ (s : State) (d k : Nat) (on : Bool), Sized s →
    (s.init = true → d < s.len → k < 7 ∨ (k = 7 ∧ s.hasDp = true) →
      ∃ t, exec (.setSeg d k on) s = .next t ∧ (fbAt t d).getLsbD k = on ∧
        (∀ j, j ≠ k → (fbAt t d).getLsbD j = (fbAt s d).getLsbD j) ∧ (∀ a, a ≠ d → fbAt t a = fbAt s a) ∧
        t.fb.length = s.fb.length ∧ t = { s with fb := t.fb }) ∧
    (s.init = true → ¬ (d < s.len ∧ (k < 7 ∨ (k = 7 ∧ s.hasDp = true))) →
      exec (.setSeg d k on) s = .next { s with rej := true }) ∧
    (s.init = false → exec (.setSeg d k on) s = .next { s with rej := true })

/-- R125 to R129, R157: SET_INT with an in-range value v. Every byte of the display is the glyph of its decimal digit of
abs(v), a suppressed leading zero is blank, and the minus sign of a negative value stands at the leftmost digit when
leading zeros are shown, else just left of the most significant nonzero digit m, which always has room. -/
def Obligations.SetIntShowsTheValue : Prop :=
  ∀ (s : State) (lz : Bool), Sized s → 1 ≤ s.len → s.init = true →
    -((10 : Int) ^ (s.len - 1) - 1) ≤ s.arg.toInt → s.arg.toInt ≤ (10 : Int) ^ s.len - 1 →
    ∃ t m, exec (.setInt lz) s = .next t ∧ t = { s with fb := t.fb } ∧ t.fb.length = s.fb.length ∧
      (∀ a, s.len ≤ a → fbAt t a = fbAt s a) ∧
      m < s.len ∧ (s.arg.toInt = 0 → m = 0) ∧
      (s.arg.toInt ≠ 0 → s.arg.toInt.natAbs / 10 ^ m % 10 ≠ 0 ∧ s.arg.toInt.natAbs < 10 ^ (m + 1)) ∧
      (s.arg.toInt < 0 → m + 1 < s.len) ∧
      ∀ a, a < s.len →
        fbAt t a =
          if s.arg.toInt < 0 ∧ a = (if lz then s.len - 1 else m + 1) then 0x40
          else if lz ∨ a ≤ m then digitGlyph s.cfg (s.arg.toInt.natAbs / 10 ^ a % 10)
          else 0x00

/-- R157: SET_INT's word, and its rejection: out of range the buffer is unchanged. -/
def Obligations.SetIntRejectsOutOfRange : Prop :=
  (∀ w : Word, fieldOp w = 0x14 → decode w = .ok (.setInt (w.getLsbD 0))) ∧
  ∀ (s : State) (lz : Bool),
    (s.init = true →
      ¬ (-((10 : Int) ^ (s.len - 1) - 1) ≤ s.arg.toInt ∧ s.arg.toInt ≤ (10 : Int) ^ s.len - 1) →
      exec (.setInt lz) s = .next { s with rej := true }) ∧
    (s.init = false → exec (.setInt lz) s = .next { s with rej := true })

/-- A rendered number can be read back: with the default digit table (R113, which the spec takes from general knowledge:
notes/assumptions/8.md), two in-range values that SET_INT shows with the same bytes are the same value. -/
def Obligations.RenderedIntegersAreDistinct : Prop :=
  ∀ (s s' t t' : State) (lz : Bool), Sized s → Sized s' → 1 ≤ s.len → s'.len = s.len →
    s.cfg.digitGlyph = canonicalDigitGlyph → s'.cfg.digitGlyph = canonicalDigitGlyph →
    s.init = true → s'.init = true → s.rej = false → s'.rej = false →
    exec (.setInt lz) s = .next t → exec (.setInt lz) s' = .next t' → t.rej = false → t'.rej = false →
    (∀ a, a < s.len → fbAt t a = fbAt t' a) → s.arg = s'.arg

/-- R160: SHIFT k moves every byte of the display by k positions toward the higher index and fills with blank; it reads the
buffer before the edge (R161), every k is accepted, and nothing else changes. -/
def Obligations.ShiftMovesTheDisplay : Prop :=
  (∀ w : Word, fieldOp w = 0x15 → decode w = .ok (.shift (fieldB w).toInt)) ∧
  ∀ (s : State) (k : Int), Sized s →
    (s.init = true →
      ∃ t, exec (.shift k) s = .next t ∧ t = { s with fb := t.fb } ∧ t.fb.length = s.fb.length ∧
        (∀ a, s.len ≤ a → fbAt t a = fbAt s a) ∧
        (∀ a j : Nat, a < s.len → j < s.len → (a : Int) = j + k → fbAt t a = fbAt s j) ∧
        (∀ a : Nat, a < s.len → (a : Int) - k < 0 ∨ (s.len : Int) ≤ a - k → fbAt t a = 0x00)) ∧
    (s.init = false → exec (.shift k) s = .next { s with rej := true })

/-- R161: SHIFT k and then SHIFT −k restores exactly the bytes that stayed in range. -/
def Obligations.ShiftBackRestoresWhatStayed : Prop :=
  ∀ (s t u : State) (k : Int), Sized s → s.init = true →
    exec (.shift k) s = .next t → exec (.shift (-k)) t = .next u →
    ∀ a : Nat, a < s.len → fbAt u a = if 0 ≤ (a : Int) + k ∧ (a : Int) + k < s.len then fbAt s a else 0x00

/-- R162, R163: GET_BYTE and GET_SEG answer the byte or its bit; an index out of range answers the sentinel 0 with REJ. -/
def Obligations.GettersAnswer : Prop :=
  (∀ w : Word, (fieldOp w = 0x30 → decode w = .ok (.getByte (fieldD w).toNat)) ∧
    (fieldOp w = 0x31 → decode w = .ok (.getSeg (fieldD w).toNat (fieldS w).toNat))) ∧
  (∀ (s : State) (d k : Nat), s.init = true →
    (d < s.len → exec (.getByte d) s = .next { s with result := (fbAt s d).setWidth 32 }) ∧
    (¬ d < s.len → exec (.getByte d) s = .next { s with result := 0, rej := true }) ∧
    (d < s.len → k < 7 ∨ (k = 7 ∧ s.hasDp = true) →
      exec (.getSeg d k) s = .next { s with result := if (fbAt s d).getLsbD k then 1 else 0 }) ∧
    (¬ (d < s.len ∧ (k < 7 ∨ (k = 7 ∧ s.hasDp = true))) →
      exec (.getSeg d k) s = .next { s with result := 0, rej := true })) ∧
  (∀ (s : State) (d k : Nat), s.init = false →
    exec (.getByte d) s = .next { s with rej := true } ∧ exec (.getSeg d k) s = .next { s with rej := true })

/-- R165: CLEAR blanks the display and changes nothing else. -/
def Obligations.ClearBlanksTheDisplay : Prop :=
  (∀ w : Word, fieldOp w = 0x02 → decode w = .ok .clear) ∧
  ∀ s : State, Sized s →
    (s.init = true →
      ∃ t, exec .clear s = .next t ∧ t = { s with fb := t.fb } ∧ t.fb.length = s.fb.length ∧
        (∀ a, a < s.len → fbAt t a = 0x00) ∧ (∀ a, s.len ≤ a → fbAt t a = fbAt s a)) ∧
    (s.init = false → exec .clear s = .next { s with rej := true })

/-- R20: no command reaches an entry at DLEN or above: none changes one, and none depends on one. Two states that differ in
such entries alone have, after the same command, the same entries below DLEN, the same RESULT, REJ, init and pend. -/
def Obligations.CommandsStayBelowDlen : Prop :=
  (∀ (i : Instr) (s t : State), exec i s = .next t → Sized s → ∀ a, s.len ≤ a →
    fbAt t a = fbAt s a ∧ enAt t a = enAt s a ∧ blAt t a = blAt s a) ∧
  ∀ (i : Instr) (s s' t t' : State), Sized s → Sized s' → s' = { s with fb := s'.fb, en := s'.en, bl := s'.bl } →
    (∀ a, a < s.len → fbAt s' a = fbAt s a ∧ enAt s' a = enAt s a ∧ blAt s' a = blAt s a) →
    exec i s = .next t → exec i s' = .next t' →
    t'.result = t.result ∧ t'.rej = t.rej ∧ t'.init = t.init ∧ t'.pend = t.pend ∧
      ∀ a, a < s.len → fbAt t' a = fbAt t a ∧ enAt t' a = enAt t a ∧ blAt t' a = blAt t a

/-! ## Effects -/

/-- R180, R181: EN_DIGIT and BLINK_DIGIT write one flag of one digit; an index at or above DLEN is rejected. -/
def Obligations.DigitFlagWrites : Prop :=
  (∀ w : Word, (fieldOp w = 0x20 → decode w = .ok (.enDigit (fieldD w).toNat (w.getLsbD 0))) ∧
    (fieldOp w = 0x21 → decode w = .ok (.blinkDigit (fieldD w).toNat (w.getLsbD 0)))) ∧
  ∀ (s : State) (d : Nat) (on : Bool), Sized s →
    (s.init = true → d < s.len →
      (∃ t, exec (.enDigit d on) s = .next t ∧ enAt t d = on ∧ (∀ a, a ≠ d → enAt t a = enAt s a) ∧
        t.en.length = s.en.length ∧ t = { s with en := t.en }) ∧
      (∃ t, exec (.blinkDigit d on) s = .next t ∧ blAt t d = on ∧ (∀ a, a ≠ d → blAt t a = blAt s a) ∧
        t.bl.length = s.bl.length ∧ t = { s with bl := t.bl })) ∧
    (s.init = true → ¬ d < s.len →
      exec (.enDigit d on) s = .next { s with rej := true } ∧ exec (.blinkDigit d on) s = .next { s with rej := true }) ∧
    (s.init = false →
      exec (.enDigit d on) s = .next { s with rej := true } ∧ exec (.blinkDigit d on) s = .next { s with rej := true })

/-- R182, R183: EN_ALL and BLINK_ALL write the flags of the indices below DLEN, and no others. -/
def Obligations.GlobalFlagWrites : Prop :=
  (∀ w : Word, (fieldOp w = 0x22 → decode w = .ok (.enAll (w.getLsbD 0))) ∧
    (fieldOp w = 0x23 → decode w = .ok (.blinkAll (w.getLsbD 0)))) ∧
  ∀ (s : State) (on : Bool), Sized s →
    (s.init = true →
      (∃ t, exec (.enAll on) s = .next t ∧ (∀ a, a < s.len → enAt t a = on) ∧ (∀ a, s.len ≤ a → enAt t a = enAt s a) ∧
        t.en.length = s.en.length ∧ t = { s with en := t.en }) ∧
      (∃ t, exec (.blinkAll on) s = .next t ∧ (∀ a, a < s.len → blAt t a = on) ∧ (∀ a, s.len ≤ a → blAt t a = blAt s a) ∧
        t.bl.length = s.bl.length ∧ t = { s with bl := t.bl })) ∧
    (s.init = false →
      exec (.enAll on) s = .next { s with rej := true } ∧ exec (.blinkAll on) s = .next { s with rej := true })

/-- The blink phase alternates: one interval later, where NOW_MS does not wrap, it is the other one (R186). -/
def Obligations.BlinkPhaseAlternates : Prop :=
  ∀ (iv : BitVec 16) (t : Word), iv ≠ 0 → t.toNat + iv.toNat < 2 ^ 32 →
    blinkOn iv (t + iv.setWidth 32) = !blinkOn iv t

/-! ## The scan sequencer -/

/-- R203, R204: what begins in a cycle in which a pass starts or a slot ends is the slot of the first enabled digit from
there on, its byte and phase sampled now, or the gap when there is none. That it samples so whatever CTRL.CONT is, in a pass
already in progress too, is the model's choice: it follows R203 and R205 where the last sentence of R292 says otherwise
(notes/assumptions/23.md). -/
def Obligations.BeginSlotTakesTheFirstEnabledDigit : Prop :=
  ∀ (s : State) (i : Nat),
    (∀ j, i ≤ j → j < s.len → enAt s j = true → (∀ k, i ≤ k → k < j → enAt s k = false) →
      beginSlot s i =
        { state := .slot, idx := BitVec.ofNat 4 j, cnt := s.dwell,
          lit := !(blAt s j && !decide ((nextNow s).toNat % (2 * s.iv.toNat) < s.iv.toNat)), latch := fbAt s j }) ∧
    ((∀ j, i ≤ j → j < s.len → enAt s j = false) →
      beginSlot s i = { state := .gap, idx := s.dlen, cnt := s.dwell, lit := false, latch := s.seq.latch })

/-- R205: while a slot goes on, no command and no register write changes its digit, its byte or its light. -/
def Obligations.SlotKeepsItsSample : Prop :=
  ∀ s t : State, s.seq.state = .slot → (thisInput s).rst = false →
    ¬ (s.presc = s.cfg.clkPerMs - 1 ∧ s.seq.cnt = 1) → step s = .next t →
    t.seq = { s.seq with cnt := t.seq.cnt } ∧
      (t.seq.cnt = if s.presc = s.cfg.clkPerMs - 1 then s.seq.cnt - 1 else s.seq.cnt)

/-- R212: a slot or gap in progress lasts exactly the cycles it has left, whatever commands the host gives meanwhile: it
keeps its registers but the count until then, and the cycle that ends it is the one the count says. Past the cycles it has
planned the host is idle (the model's choice, notes/assumptions/1.md). -/
def Obligations.SlotLastsItsDwell : Prop :=
  ∀ s : State, Inv s → NoReset s → s.seq.state ≠ .idle →
    (∀ k < cyclesLeft s, ∃ t, run k s = .next t ∧ t.seq = { s.seq with cnt := t.seq.cnt }) ∧
    ∃ u t, run (cyclesLeft s - 1) s = .next u ∧ step u = .next t ∧ t.presc = 0 ∧
      (s.seq.state = .slot → t.seq = beginSlot u (s.seq.idx.toNat + 1)) ∧
      (s.seq.state = .gap → t.seq = if u.cont || u.pend then beginSlot u 0 else { SeqRegs.reset with latch := s.seq.latch })

/-- R212, R301: with CONT = 1 and a host that gives no commands, a pass that began in a tick cycle takes exactly
(E + 1) × DWELL × CLK_PER_MS cycles, and the next one follows at once. That an empty list of inputs is a host that does
nothing for the whole pass is the model's choice (notes/assumptions/1.md). -/
def Obligations.PassPeriod : Prop :=
  ∀ s : State, Inv s → s.inputs = [] → s.init = true → s.cont = true → AtPassStart s →
    (∃ t, run (passCycles s) s = .next t ∧ AtPassStart t) ∧
    ∀ k, 0 < k → k < passCycles s → ∀ t, run k s = .next t → ¬ AtPassStart t

/-- R200, R201: CLK_PER_MS cycles without reset count exactly one millisecond and bring the prescaler back. Past the cycles
it has planned the host is idle (the model's choice, notes/assumptions/1.md). -/
def Obligations.MillisecondEveryClkPerMsCycles : Prop :=
  ∀ s : State, Inv s → NoReset s →
    ∃ t, run s.cfg.clkPerMs s = .next t ∧ t.nowMs = s.nowMs + 1 ∧ t.presc = s.presc

/-! ## Outputs -/

/-- R220: at most one digit is active in any cycle, and none outside a lit slot. -/
def Obligations.AtMostOneDigitIsActive : Prop :=
  ∀ s : State,
    (∀ i j, digAct s i = true → digAct s j = true → i = j) ∧
    (∀ i, digAct s i = true ↔ s.seq.state = .slot ∧ s.seq.lit = true ∧ i = s.seq.idx.toNat)

/-- R221, R222: the physical levels. In a lit slot segment line k carries the latched bit under POL, the eighth only with
HAS_DP; otherwise every line is at its unlit level. A digit line carries the effective brightness when active and eff(0)
otherwise, so at DLEN and above always. That an active digit carries it whatever byte is latched, a blank one among them, is
the model's choice: it follows R222 where R272 says otherwise of a cleared display (notes/assumptions/22.md). -/
def Obligations.OutputsFollowPolarity : Prop :=
  ∀ s : State, Inv s →
    (∀ k, k < 8 → (segOutByte s).getLsbD k =
      ((decide (s.seq.state = .slot) && s.seq.lit && s.seq.latch.getLsbD k && (decide (k < 7) || s.hasDp)) ^^ s.pol)) ∧
    (∀ i, digDuty s i =
      if digAct s i then (if s.pol then 255 - s.bright else s.bright) else (if s.pol then 255 else 0)) ∧
    (∀ i, s.len ≤ i → digAct s i = false)

/-- R21: no command's effect depends on polarity; flipping POL flips the segment lines and nothing stored. -/
def Obligations.PolarityActsAtTheOutputsOnly : Prop :=
  ∀ (i : Instr) (s t : State), exec i s = .next t →
    exec i { s with pol := !s.pol } = .next { t with pol := !s.pol } ∧
    segOutByte { s with pol := !s.pol } = ~~~ segOutByte s

/-- R284: after a reset edge out_en is 0, no digit is active, every segment line is 0 and every duty is 0. -/
def Obligations.OutputsAfterReset : Prop :=
  ∀ (s t : State) (op : BusOp) (rest : List HostCycle), s.inputs = { rst := true, op := op } :: rest → step s = .next t →
    outEn t = false ∧ segOutByte t = 0x00 ∧ ∀ i, digAct t i = false ∧ digDuty t i = 0

/-- R223: out_en is init. So no pin is driven until a cycle in which the host writes INIT (R242); that cycle drives them,
and every later cycle without reset keeps them driven. -/
def Obligations.PinsAreReleasedUntilInit : Prop :=
  (∀ s : State, outEn s = s.init) ∧
  (∀ s t : State, outEn s = false → step s = .next t →
    (∀ w rest, s.inputs = writeCycle 0x0 w :: rest → fieldOp w ≠ 0x01) → outEn t = false) ∧
  (∀ (s : State) (w : Word) (rest : List HostCycle), s.inputs = writeCycle 0x0 w :: rest → fieldOp w = 0x01 →
    ∃ t, step s = .next t ∧ outEn t = true) ∧
  ∀ s t : State, outEn s = true → (thisInput s).rst = false → step s = .next t → outEn t = true
end

