-- ==== Sys2Proof/Laws/State.lean ====
section
/-!
SUPPORT. One lemma per field per update of the state, each true by rfl: what an update writes, and what it leaves. Later
proofs rewrite with these and unfold no record update.
-/

namespace Sys2Proof.Machine

/-! ## State.setFb -/

section

variable (s : State) (v : List Byte)

@[simp] theorem setFb_cfg : (s.setFb v).cfg = s.cfg := rfl
@[simp] theorem setFb_fb : (s.setFb v).fb = v := rfl
@[simp] theorem setFb_en : (s.setFb v).en = s.en := rfl
@[simp] theorem setFb_bl : (s.setFb v).bl = s.bl := rfl
@[simp] theorem setFb_arg : (s.setFb v).arg = s.arg := rfl
@[simp] theorem setFb_result : (s.setFb v).result = s.result := rfl
@[simp] theorem setFb_init : (s.setFb v).init = s.init := rfl
@[simp] theorem setFb_rej : (s.setFb v).rej = s.rej := rfl
@[simp] theorem setFb_pend : (s.setFb v).pend = s.pend := rfl
@[simp] theorem setFb_pol : (s.setFb v).pol = s.pol := rfl
@[simp] theorem setFb_hasDp : (s.setFb v).hasDp = s.hasDp := rfl
@[simp] theorem setFb_dlen : (s.setFb v).dlen = s.dlen := rfl
@[simp] theorem setFb_dwell : (s.setFb v).dwell = s.dwell := rfl
@[simp] theorem setFb_bright : (s.setFb v).bright = s.bright := rfl
@[simp] theorem setFb_iv : (s.setFb v).iv = s.iv := rfl
@[simp] theorem setFb_unkGlyph : (s.setFb v).unkGlyph = s.unkGlyph := rfl
@[simp] theorem setFb_cont : (s.setFb v).cont = s.cont := rfl
@[simp] theorem setFb_presc : (s.setFb v).presc = s.presc := rfl
@[simp] theorem setFb_nowMs : (s.setFb v).nowMs = s.nowMs := rfl
@[simp] theorem setFb_seq : (s.setFb v).seq = s.seq := rfl
@[simp] theorem setFb_inputs : (s.setFb v).inputs = s.inputs := rfl
@[simp] theorem setFb_rdata : (s.setFb v).rdata = s.rdata := rfl
@[simp] theorem setFb_len : (s.setFb v).len = s.len := rfl

end

/-! ## State.setEn -/

section

variable (s : State) (v : List Bool)

@[simp] theorem setEn_cfg : (s.setEn v).cfg = s.cfg := rfl
@[simp] theorem setEn_fb : (s.setEn v).fb = s.fb := rfl
@[simp] theorem setEn_en : (s.setEn v).en = v := rfl
@[simp] theorem setEn_bl : (s.setEn v).bl = s.bl := rfl
@[simp] theorem setEn_arg : (s.setEn v).arg = s.arg := rfl
@[simp] theorem setEn_result : (s.setEn v).result = s.result := rfl
@[simp] theorem setEn_init : (s.setEn v).init = s.init := rfl
@[simp] theorem setEn_rej : (s.setEn v).rej = s.rej := rfl
@[simp] theorem setEn_pend : (s.setEn v).pend = s.pend := rfl
@[simp] theorem setEn_pol : (s.setEn v).pol = s.pol := rfl
@[simp] theorem setEn_hasDp : (s.setEn v).hasDp = s.hasDp := rfl
@[simp] theorem setEn_dlen : (s.setEn v).dlen = s.dlen := rfl
@[simp] theorem setEn_dwell : (s.setEn v).dwell = s.dwell := rfl
@[simp] theorem setEn_bright : (s.setEn v).bright = s.bright := rfl
@[simp] theorem setEn_iv : (s.setEn v).iv = s.iv := rfl
@[simp] theorem setEn_unkGlyph : (s.setEn v).unkGlyph = s.unkGlyph := rfl
@[simp] theorem setEn_cont : (s.setEn v).cont = s.cont := rfl
@[simp] theorem setEn_presc : (s.setEn v).presc = s.presc := rfl
@[simp] theorem setEn_nowMs : (s.setEn v).nowMs = s.nowMs := rfl
@[simp] theorem setEn_seq : (s.setEn v).seq = s.seq := rfl
@[simp] theorem setEn_inputs : (s.setEn v).inputs = s.inputs := rfl
@[simp] theorem setEn_rdata : (s.setEn v).rdata = s.rdata := rfl
@[simp] theorem setEn_len : (s.setEn v).len = s.len := rfl

end

/-! ## State.setBl -/

section

variable (s : State) (v : List Bool)

@[simp] theorem setBl_cfg : (s.setBl v).cfg = s.cfg := rfl
@[simp] theorem setBl_fb : (s.setBl v).fb = s.fb := rfl
@[simp] theorem setBl_en : (s.setBl v).en = s.en := rfl
@[simp] theorem setBl_bl : (s.setBl v).bl = v := rfl
@[simp] theorem setBl_arg : (s.setBl v).arg = s.arg := rfl
@[simp] theorem setBl_result : (s.setBl v).result = s.result := rfl
@[simp] theorem setBl_init : (s.setBl v).init = s.init := rfl
@[simp] theorem setBl_rej : (s.setBl v).rej = s.rej := rfl
@[simp] theorem setBl_pend : (s.setBl v).pend = s.pend := rfl
@[simp] theorem setBl_pol : (s.setBl v).pol = s.pol := rfl
@[simp] theorem setBl_hasDp : (s.setBl v).hasDp = s.hasDp := rfl
@[simp] theorem setBl_dlen : (s.setBl v).dlen = s.dlen := rfl
@[simp] theorem setBl_dwell : (s.setBl v).dwell = s.dwell := rfl
@[simp] theorem setBl_bright : (s.setBl v).bright = s.bright := rfl
@[simp] theorem setBl_iv : (s.setBl v).iv = s.iv := rfl
@[simp] theorem setBl_unkGlyph : (s.setBl v).unkGlyph = s.unkGlyph := rfl
@[simp] theorem setBl_cont : (s.setBl v).cont = s.cont := rfl
@[simp] theorem setBl_presc : (s.setBl v).presc = s.presc := rfl
@[simp] theorem setBl_nowMs : (s.setBl v).nowMs = s.nowMs := rfl
@[simp] theorem setBl_seq : (s.setBl v).seq = s.seq := rfl
@[simp] theorem setBl_inputs : (s.setBl v).inputs = s.inputs := rfl
@[simp] theorem setBl_rdata : (s.setBl v).rdata = s.rdata := rfl
@[simp] theorem setBl_len : (s.setBl v).len = s.len := rfl

end

/-! ## State.setResult -/

section

variable (s : State) (v : Word)

@[simp] theorem setResult_cfg : (s.setResult v).cfg = s.cfg := rfl
@[simp] theorem setResult_fb : (s.setResult v).fb = s.fb := rfl
@[simp] theorem setResult_en : (s.setResult v).en = s.en := rfl
@[simp] theorem setResult_bl : (s.setResult v).bl = s.bl := rfl
@[simp] theorem setResult_arg : (s.setResult v).arg = s.arg := rfl
@[simp] theorem setResult_result : (s.setResult v).result = v := rfl
@[simp] theorem setResult_init : (s.setResult v).init = s.init := rfl
@[simp] theorem setResult_rej : (s.setResult v).rej = s.rej := rfl
@[simp] theorem setResult_pend : (s.setResult v).pend = s.pend := rfl
@[simp] theorem setResult_pol : (s.setResult v).pol = s.pol := rfl
@[simp] theorem setResult_hasDp : (s.setResult v).hasDp = s.hasDp := rfl
@[simp] theorem setResult_dlen : (s.setResult v).dlen = s.dlen := rfl
@[simp] theorem setResult_dwell : (s.setResult v).dwell = s.dwell := rfl
@[simp] theorem setResult_bright : (s.setResult v).bright = s.bright := rfl
@[simp] theorem setResult_iv : (s.setResult v).iv = s.iv := rfl
@[simp] theorem setResult_unkGlyph : (s.setResult v).unkGlyph = s.unkGlyph := rfl
@[simp] theorem setResult_cont : (s.setResult v).cont = s.cont := rfl
@[simp] theorem setResult_presc : (s.setResult v).presc = s.presc := rfl
@[simp] theorem setResult_nowMs : (s.setResult v).nowMs = s.nowMs := rfl
@[simp] theorem setResult_seq : (s.setResult v).seq = s.seq := rfl
@[simp] theorem setResult_inputs : (s.setResult v).inputs = s.inputs := rfl
@[simp] theorem setResult_rdata : (s.setResult v).rdata = s.rdata := rfl
@[simp] theorem setResult_len : (s.setResult v).len = s.len := rfl

end

/-! ## State.setRej -/

section

variable (s : State) (v : Bool)

@[simp] theorem setRej_cfg : (s.setRej v).cfg = s.cfg := rfl
@[simp] theorem setRej_fb : (s.setRej v).fb = s.fb := rfl
@[simp] theorem setRej_en : (s.setRej v).en = s.en := rfl
@[simp] theorem setRej_bl : (s.setRej v).bl = s.bl := rfl
@[simp] theorem setRej_arg : (s.setRej v).arg = s.arg := rfl
@[simp] theorem setRej_result : (s.setRej v).result = s.result := rfl
@[simp] theorem setRej_init : (s.setRej v).init = s.init := rfl
@[simp] theorem setRej_rej : (s.setRej v).rej = v := rfl
@[simp] theorem setRej_pend : (s.setRej v).pend = s.pend := rfl
@[simp] theorem setRej_pol : (s.setRej v).pol = s.pol := rfl
@[simp] theorem setRej_hasDp : (s.setRej v).hasDp = s.hasDp := rfl
@[simp] theorem setRej_dlen : (s.setRej v).dlen = s.dlen := rfl
@[simp] theorem setRej_dwell : (s.setRej v).dwell = s.dwell := rfl
@[simp] theorem setRej_bright : (s.setRej v).bright = s.bright := rfl
@[simp] theorem setRej_iv : (s.setRej v).iv = s.iv := rfl
@[simp] theorem setRej_unkGlyph : (s.setRej v).unkGlyph = s.unkGlyph := rfl
@[simp] theorem setRej_cont : (s.setRej v).cont = s.cont := rfl
@[simp] theorem setRej_presc : (s.setRej v).presc = s.presc := rfl
@[simp] theorem setRej_nowMs : (s.setRej v).nowMs = s.nowMs := rfl
@[simp] theorem setRej_seq : (s.setRej v).seq = s.seq := rfl
@[simp] theorem setRej_inputs : (s.setRej v).inputs = s.inputs := rfl
@[simp] theorem setRej_rdata : (s.setRej v).rdata = s.rdata := rfl
@[simp] theorem setRej_len : (s.setRej v).len = s.len := rfl

end

/-! ## State.setPend -/

section

variable (s : State) (v : Bool)

@[simp] theorem setPend_cfg : (s.setPend v).cfg = s.cfg := rfl
@[simp] theorem setPend_fb : (s.setPend v).fb = s.fb := rfl
@[simp] theorem setPend_en : (s.setPend v).en = s.en := rfl
@[simp] theorem setPend_bl : (s.setPend v).bl = s.bl := rfl
@[simp] theorem setPend_arg : (s.setPend v).arg = s.arg := rfl
@[simp] theorem setPend_result : (s.setPend v).result = s.result := rfl
@[simp] theorem setPend_init : (s.setPend v).init = s.init := rfl
@[simp] theorem setPend_rej : (s.setPend v).rej = s.rej := rfl
@[simp] theorem setPend_pend : (s.setPend v).pend = v := rfl
@[simp] theorem setPend_pol : (s.setPend v).pol = s.pol := rfl
@[simp] theorem setPend_hasDp : (s.setPend v).hasDp = s.hasDp := rfl
@[simp] theorem setPend_dlen : (s.setPend v).dlen = s.dlen := rfl
@[simp] theorem setPend_dwell : (s.setPend v).dwell = s.dwell := rfl
@[simp] theorem setPend_bright : (s.setPend v).bright = s.bright := rfl
@[simp] theorem setPend_iv : (s.setPend v).iv = s.iv := rfl
@[simp] theorem setPend_unkGlyph : (s.setPend v).unkGlyph = s.unkGlyph := rfl
@[simp] theorem setPend_cont : (s.setPend v).cont = s.cont := rfl
@[simp] theorem setPend_presc : (s.setPend v).presc = s.presc := rfl
@[simp] theorem setPend_nowMs : (s.setPend v).nowMs = s.nowMs := rfl
@[simp] theorem setPend_seq : (s.setPend v).seq = s.seq := rfl
@[simp] theorem setPend_inputs : (s.setPend v).inputs = s.inputs := rfl
@[simp] theorem setPend_rdata : (s.setPend v).rdata = s.rdata := rfl
@[simp] theorem setPend_len : (s.setPend v).len = s.len := rfl

end

/-! ## State.setInit -/

section

variable (s : State) (v : Bool)

@[simp] theorem setInit_cfg : (s.setInit v).cfg = s.cfg := rfl
@[simp] theorem setInit_fb : (s.setInit v).fb = s.fb := rfl
@[simp] theorem setInit_en : (s.setInit v).en = s.en := rfl
@[simp] theorem setInit_bl : (s.setInit v).bl = s.bl := rfl
@[simp] theorem setInit_arg : (s.setInit v).arg = s.arg := rfl
@[simp] theorem setInit_result : (s.setInit v).result = s.result := rfl
@[simp] theorem setInit_init : (s.setInit v).init = v := rfl
@[simp] theorem setInit_rej : (s.setInit v).rej = s.rej := rfl
@[simp] theorem setInit_pend : (s.setInit v).pend = s.pend := rfl
@[simp] theorem setInit_pol : (s.setInit v).pol = s.pol := rfl
@[simp] theorem setInit_hasDp : (s.setInit v).hasDp = s.hasDp := rfl
@[simp] theorem setInit_dlen : (s.setInit v).dlen = s.dlen := rfl
@[simp] theorem setInit_dwell : (s.setInit v).dwell = s.dwell := rfl
@[simp] theorem setInit_bright : (s.setInit v).bright = s.bright := rfl
@[simp] theorem setInit_iv : (s.setInit v).iv = s.iv := rfl
@[simp] theorem setInit_unkGlyph : (s.setInit v).unkGlyph = s.unkGlyph := rfl
@[simp] theorem setInit_cont : (s.setInit v).cont = s.cont := rfl
@[simp] theorem setInit_presc : (s.setInit v).presc = s.presc := rfl
@[simp] theorem setInit_nowMs : (s.setInit v).nowMs = s.nowMs := rfl
@[simp] theorem setInit_seq : (s.setInit v).seq = s.seq := rfl
@[simp] theorem setInit_inputs : (s.setInit v).inputs = s.inputs := rfl
@[simp] theorem setInit_rdata : (s.setInit v).rdata = s.rdata := rfl
@[simp] theorem setInit_len : (s.setInit v).len = s.len := rfl

end

/-! ## The commit of a clock cycle (spec/44_lifecycle.md R246) -/

section

variable (s : State) (op : BusOp) (e : State)

@[simp] theorem commit_cfg : (commit s op e).cfg = e.cfg := rfl
@[simp] theorem commit_fb : (commit s op e).fb = e.fb := rfl
@[simp] theorem commit_en : (commit s op e).en = e.en := rfl
@[simp] theorem commit_bl : (commit s op e).bl = e.bl := rfl
@[simp] theorem commit_arg : (commit s op e).arg = e.arg := rfl
@[simp] theorem commit_result : (commit s op e).result = e.result := rfl
@[simp] theorem commit_init : (commit s op e).init = e.init := rfl
@[simp] theorem commit_rej : (commit s op e).rej = e.rej := rfl
@[simp] theorem commit_pend : (commit s op e).pend = mergePend s e.pend := rfl
@[simp] theorem commit_pol : (commit s op e).pol = e.pol := rfl
@[simp] theorem commit_hasDp : (commit s op e).hasDp = e.hasDp := rfl
@[simp] theorem commit_dlen : (commit s op e).dlen = e.dlen := rfl
@[simp] theorem commit_dwell : (commit s op e).dwell = e.dwell := rfl
@[simp] theorem commit_bright : (commit s op e).bright = e.bright := rfl
@[simp] theorem commit_iv : (commit s op e).iv = e.iv := rfl
@[simp] theorem commit_unkGlyph : (commit s op e).unkGlyph = e.unkGlyph := rfl
@[simp] theorem commit_cont : (commit s op e).cont = e.cont := rfl
@[simp] theorem commit_presc : (commit s op e).presc = nextPresc s := rfl
@[simp] theorem commit_nowMs : (commit s op e).nowMs = nextNow s := rfl
@[simp] theorem commit_seq : (commit s op e).seq = seqStep s := rfl
@[simp] theorem commit_inputs : (commit s op e).inputs = s.inputs.tail := rfl
@[simp] theorem commit_rdata : (commit s op e).rdata = readData s op := rfl
@[simp] theorem commit_len : (commit s op e).len = e.len := rfl

end

end Sys2Proof.Machine
end

