-- ==== Sys2Proof/Laws/Ops.lean ====
section
/-!
SUPPORT. What each shared operation over the state can do, said once: the array write of a whole-buffer command, reading an
array after a write, rejection, the lifecycle gate, a query's answer, the merge of a cycle; and that every memory operation
keeps the arrays' length (`Memory.wf`).
-/

namespace Sys2Proof.Machine

/-! ## Lists as arrays -/

section

variable {α : Type} (L : Nat) (f : Nat → α) (xs : List α) (d x : α) (i j : Nat)

@[simp] theorem writeFirst_length : (writeFirst L f xs).length = xs.length := by
  simp [writeFirst]

/-- Reading entry i after a whole-array write. -/
theorem writeFirst_getD :
    (writeFirst L f xs).getD i d = if i < xs.length then (if i < L then f i else xs.getD i d) else d := by
  by_cases h : i < xs.length <;> simp [writeFirst, List.getD, h]

/-- Reading entry i after writing entry j. -/
theorem set_getD :
    (xs.set j x).getD i d = if i = j ∧ j < xs.length then x else xs.getD i d := by
  by_cases h : i = j
  · subst h
    by_cases h2 : i < xs.length <;> simp [List.getD, h2]
  · simp [List.getD, h, Ne.symm h]

end

/-! ## Reading the arrays after an update -/

section

variable (s : State) (v : Byte) (b : Bool) (f : Nat → Byte) (g : Nat → Bool) (xs : List Byte) (ys : List Bool) (d i : Nat)

/-- The frame buffer after one entry is written. -/
theorem fbAt_set : fbAt (s.setFb (s.fb.set d v)) i = if i = d ∧ d < s.fb.length then v else fbAt s i := by
  simp only [fbAt, setFb_fb, set_getD]

/-- The enable flags after one is written. -/
theorem enAt_set : enAt (s.setEn (s.en.set d b)) i = if i = d ∧ d < s.en.length then b else enAt s i := by
  simp only [enAt, setEn_en, set_getD]

/-- The blink flags after one is written. -/
theorem blAt_set : blAt (s.setBl (s.bl.set d b)) i = if i = d ∧ d < s.bl.length then b else blAt s i := by
  simp only [blAt, setBl_bl, set_getD]

/-- The frame buffer after a whole-buffer write. -/
theorem fbAt_writeBuffer :
    fbAt (writeBuffer f s) i = if i < s.fb.length then (if i < s.len then f i else fbAt s i) else blank := by
  simp only [fbAt, writeBuffer, setFb_fb, writeFirst_getD]

/-- The enable flags after a write of those below DLEN. -/
theorem enAt_writeFirst :
    enAt (s.setEn (writeFirst s.len g s.en)) i =
      if i < s.en.length then (if i < s.len then g i else enAt s i) else false := by
  simp only [enAt, setEn_en, writeFirst_getD]

/-- The blink flags after a write of those below DLEN. -/
theorem blAt_writeFirst :
    blAt (s.setBl (writeFirst s.len g s.bl)) i =
      if i < s.bl.length then (if i < s.len then g i else blAt s i) else false := by
  simp only [blAt, setBl_bl, writeFirst_getD]

@[simp] theorem fbAt_setEn : fbAt (s.setEn ys) i = fbAt s i := rfl
@[simp] theorem fbAt_setBl : fbAt (s.setBl ys) i = fbAt s i := rfl
@[simp] theorem fbAt_setResult (w : Word) : fbAt (s.setResult w) i = fbAt s i := rfl
@[simp] theorem fbAt_setRej : fbAt (s.setRej b) i = fbAt s i := rfl
@[simp] theorem fbAt_setPend : fbAt (s.setPend b) i = fbAt s i := rfl
@[simp] theorem fbAt_setInit : fbAt (s.setInit b) i = fbAt s i := rfl
@[simp] theorem enAt_setFb : enAt (s.setFb xs) i = enAt s i := rfl
@[simp] theorem enAt_setBl : enAt (s.setBl ys) i = enAt s i := rfl
@[simp] theorem enAt_setRej : enAt (s.setRej b) i = enAt s i := rfl
@[simp] theorem enAt_setPend : enAt (s.setPend b) i = enAt s i := rfl
@[simp] theorem blAt_setFb : blAt (s.setFb xs) i = blAt s i := rfl
@[simp] theorem blAt_setEn : blAt (s.setEn ys) i = blAt s i := rfl
@[simp] theorem blAt_setRej : blAt (s.setRej b) i = blAt s i := rfl
@[simp] theorem blAt_setPend : blAt (s.setPend b) i = blAt s i := rfl

end

/-! ## Rejection, the gate and answers -/

section

variable (s : State) (v : Word) (valid : Bool) (effect : State → State)

/-- `reject()` sets REJ and nothing else (R260). -/
theorem reject_eq : reject s = { s with rej := true } := rfl

@[simp] theorem rejectUnless_true : rejectUnless true s = s := rfl
@[simp] theorem rejectUnless_false : rejectUnless false s = reject s := rfl

/-- A query's answer writes RESULT and, for an invalid index, REJ (R262). -/
theorem answer_eq : answer valid v s = { s with result := v, rej := s.rej || !valid } := by
  cases valid <;> simp [answer, reject, State.setRej, State.setResult]

@[simp] theorem gated_of_init (h : s.init = true) : gated effect s = .next (effect s) := by
  simp [gated, h]

@[simp] theorem gated_before_init (h : s.init = false) : gated effect s = .next (reject s) := by
  simp [gated, h]

/-- What the gate can do: the effect after INIT, rejection before it. -/
theorem gated_cases {t : State} (h : gated effect s = .next t) :
    (s.init = true ∧ t = effect s) ∨ (s.init = false ∧ t = reject s) := by
  cases hi : s.init
  · rw [gated_before_init s effect hi] at h
    exact .inr ⟨rfl, by injection h with h; exact h.symm⟩
  · rw [gated_of_init s effect hi] at h
    exact .inl ⟨rfl, by injection h with h; exact h.symm⟩

/-- One frame-buffer entry written, or the write rejected (R150). -/
theorem writeDigit_cases (d : Nat) (b : Byte) :
    (d < s.len ∧ writeDigit d b s = s.setFb (s.fb.set d b)) ∨ (¬ d < s.len ∧ writeDigit d b s = reject s) := by
  by_cases h : d < s.len <;> simp [writeDigit, h]

end

/-! ## Carrying on -/

@[simp] theorem mapNext_next (f : State → State) (s : State) : mapNext f (.next s) = .next (f s) := rfl

/-- What carrying on can answer. -/
theorem mapNext_cases {f : State → State} {r : Result} {t : State} (h : mapNext f r = .next t) :
    ∃ e, r = .next e ∧ t = f e := by
  cases r with
  | next e => exact ⟨e, rfl, by injection h with h; exact h.symm⟩
  | fault r => cases r
  | refused r => exact absurd h (by simp [mapNext])

/-! ## Every memory operation keeps the arrays' length -/

section

theorem setFb_set_wf {s : State} (h : Memory.wf s) (d : Nat) (b : Byte) : Memory.wf (s.setFb (s.fb.set d b)) := by
  simpa [Memory.wf] using h

theorem setEn_set_wf {s : State} (h : Memory.wf s) (d : Nat) (b : Bool) : Memory.wf (s.setEn (s.en.set d b)) := by
  simpa [Memory.wf] using h

theorem setBl_set_wf {s : State} (h : Memory.wf s) (d : Nat) (b : Bool) : Memory.wf (s.setBl (s.bl.set d b)) := by
  simpa [Memory.wf] using h

theorem writeDigit_wf {s : State} (h : Memory.wf s) (d : Nat) (b : Byte) : Memory.wf (writeDigit d b s) := by
  rcases writeDigit_cases s d b with ⟨_, e⟩ | ⟨_, e⟩ <;> rw [e]
  · exact setFb_set_wf h d b
  · exact h

theorem writeBuffer_wf {s : State} (h : Memory.wf s) (f : Nat → Byte) : Memory.wf (writeBuffer f s) := by
  simpa [Memory.wf, writeBuffer] using h

theorem setEn_writeFirst_wf {s : State} (h : Memory.wf s) (g : Nat → Bool) :
    Memory.wf (s.setEn (writeFirst s.len g s.en)) := by
  simpa [Memory.wf] using h

theorem setBl_writeFirst_wf {s : State} (h : Memory.wf s) (g : Nat → Bool) :
    Memory.wf (s.setBl (writeFirst s.len g s.bl)) := by
  simpa [Memory.wf] using h

theorem resetOf_wf (c : Config) : Memory.wf (State.resetOf c) := by
  simp [Memory.wf, State.resetOf]

theorem reset_wf : Memory.wf State.reset := resetOf_wf buildConfig

end

end Sys2Proof.Machine
end

