-- ==== Sys2Proof/Laws/Commands.lean ====
section
/-!
SUPPORT. What a command can write at all, said once for every constructor.
-/

namespace Sys2Proof.Machine

/-- The fields a command may write: fb, en, bl, RESULT, init, REJ and pend (spec/44_lifecycle.md R246, the writes E of a
command). -/
def CommandFrame (s t : State) : Prop :=
  t = { s with fb := t.fb, en := t.en, bl := t.bl, result := t.result, init := t.init, rej := t.rej, pend := t.pend }

section

variable (s : State)

@[simp] theorem commandFrame_refl : CommandFrame s s := rfl
@[simp] theorem commandFrame_reject : CommandFrame s (reject s) := rfl
@[simp] theorem commandFrame_setFb (v : List Byte) : CommandFrame s (s.setFb v) := rfl
@[simp] theorem commandFrame_setEn (v : List Bool) : CommandFrame s (s.setEn v) := rfl
@[simp] theorem commandFrame_setBl (v : List Bool) : CommandFrame s (s.setBl v) := rfl
@[simp] theorem commandFrame_setPend (v : Bool) : CommandFrame s (s.setPend v) := rfl
@[simp] theorem commandFrame_setInit (v : Bool) : CommandFrame s (s.setInit v) := rfl

@[simp] theorem commandFrame_answer (valid : Bool) (v : Word) : CommandFrame s (answer valid v s) := by
  rw [answer_eq]; rfl

@[simp] theorem commandFrame_writeDigit (d : Nat) (b : Byte) : CommandFrame s (writeDigit d b s) := by
  rcases writeDigit_cases s d b with ⟨_, e⟩ | ⟨_, e⟩ <;> rw [e] <;> simp

@[simp] theorem commandFrame_writeBuffer (f : Nat → Byte) : CommandFrame s (writeBuffer f s) := rfl

/-- A conditional effect stays in the frame when both branches do. -/
theorem commandFrame_ite {p : Prop} [Decidable p] {a b : State} (ha : CommandFrame s a) (hb : CommandFrame s b) :
    CommandFrame s (if p then a else b) := by
  split <;> assumption

/-- A gated effect answers a next state in the frame when the effect stays in it. -/
theorem gated_frame {effect : State → State} (h : CommandFrame s (effect s)) :
    ∃ t, gated effect s = .next t ∧ CommandFrame s t := by
  refine ⟨_, rfl, commandFrame_ite s h (commandFrame_reject s)⟩

end

/-- Every command answers a next state, and writes only the fields of `CommandFrame`. -/
theorem exec_frame (i : Instr) (s : State) : ∃ t, exec i s = .next t ∧ CommandFrame s t := by
  cases i <;>
    simp only [exec, execNop, execInit, execRefresh, execSetByte, execSetDigit, execSetChar, execSetSeg, execSetInt,
      execShift, execClear, execGetByte, execGetSeg, execEnDigit, execBlinkDigit, execEnAll, execBlinkAll,
      execGlyphDigit, execGlyphChar, execGlyphMinus, execGlyphDot, execSegSet, execSegTest, execInvert, execInRange]
  case nop => exact ⟨s, rfl, commandFrame_refl s⟩
  case init => exact ⟨_, rfl, commandFrame_ite s (commandFrame_reject s) (commandFrame_setInit s true)⟩
  case setSeg | setInt | enDigit | blinkDigit =>
    apply gated_frame
    apply commandFrame_ite <;> simp
  all_goals
    apply gated_frame
    simp

/-- What each command makes of the state after INIT, written once for proofs: the effect that its meaning gates. INIT itself
is rejected then. -/
def effectOf (i : Instr) (s : State) : State :=
  match i with
  | .nop => s
  | .init => reject s
  | .clear => writeBuffer (fun _ => blank) s
  | .refresh => s.setPend true
  | .setByte d b => writeDigit d b s
  | .setDigit d n => writeDigit d (digitGlyph s.cfg n) s
  | .setChar d c => writeDigit d (charGlyph s c) s
  | .setSeg d k on => if segValid s k then writeDigit d (setSegment s (fbAt s d) k on) s else reject s
  | .setInt lz =>
    if valueInRange (argInt s) s.len then writeBuffer (encodedInteger s.cfg (argInt s) s.len lz) s else reject s
  | .shift k => writeBuffer (shiftedByte s k) s
  | .enDigit d on => if digitValid s d then s.setEn (s.en.set d on) else reject s
  | .blinkDigit d on => if digitValid s d then s.setBl (s.bl.set d on) else reject s
  | .enAll on => s.setEn (writeFirst s.len (fun _ => on) s.en)
  | .blinkAll on => s.setBl (writeFirst s.len (fun _ => on) s.bl)
  | .getByte d => answer (digitValid s d) (if digitValid s d then (fbAt s d).setWidth 32 else 0) s
  | .getSeg d k =>
    answer (digitValid s d && segValid s k)
      (if digitValid s d && segValid s k then (BitVec.ofBool ((fbAt s d).getLsbD k)).setWidth 32 else 0) s
  | .glyphDigit n => answer true ((digitGlyph s.cfg n).setWidth 32) s
  | .glyphChar c => answer true ((charGlyph s c).setWidth 32) s
  | .glyphMinus => answer true (minusGlyph.setWidth 32) s
  | .glyphDot => answer true (dotGlyph.setWidth 32) s
  | .segSet b k on => answer (segValid s k) ((setSegment s b k on).setWidth 32) s
  | .segTest b k => answer (segValid s k) ((BitVec.ofBool (segmentActive s b k)).setWidth 32) s
  | .invert b => answer true ((invertByte b).setWidth 32) s
  | .inRange => answer true (if valueInRange (argInt s) s.len then 1 else 0) s

/-- After INIT every command answers its effect (spec/44_lifecycle.md R241, R244). -/
theorem exec_of_init (i : Instr) {s : State} (h : s.init = true) : exec i s = .next (effectOf i s) := by
  cases i <;>
    simp [effectOf, exec, execNop, execInit, execRefresh, execSetByte, execSetDigit, execSetChar, execSetSeg, execSetInt,
      execShift, execClear, execGetByte, execGetSeg, execEnDigit, execBlinkDigit, execEnAll, execBlinkAll,
      execGlyphDigit, execGlyphChar, execGlyphMinus, execGlyphDot, execSegSet, execSegTest, execInvert, execInRange, h]

end Sys2Proof.Machine
end

