-- ==== Sys2Proof/Laws/Sequencer.lean ====
section
/-!
SUPPORT. What the time base and the sequencer can do in a cycle, said once (spec/43_scan_sequencer.md R200 to R210).
-/

namespace Sys2Proof.Machine

/-- The first enabled digit at i or above, below DLEN: `min J` of R203. -/
theorem nextEnabled_eq_some {s : State} {i j : Nat} :
    nextEnabled s i = some j ↔
      (i ≤ j ∧ enAt s j = true) ∧ j < s.len ∧ ∀ k < j, i ≤ k → enAt s k = false := by
  simp only [nextEnabled, List.find?_range_eq_some, Bool.and_eq_true, decide_eq_true_eq, List.mem_range,
    Bool.not_eq_true', Bool.and_eq_false_imp]

/-- No digit at i or above is enabled: J of R203 is empty. -/
theorem nextEnabled_eq_none {s : State} {i : Nat} :
    nextEnabled s i = none ↔ ∀ j < s.len, i ≤ j → enAt s j = false := by
  simp [nextEnabled]

/-- beginSlot finds no digit: the gap (R203, R204). -/
theorem beginSlot_gap {s : State} {i : Nat} (h : nextEnabled s i = none) :
    beginSlot s i = { state := .gap, idx := s.dlen, cnt := s.dwell, lit := false, latch := s.seq.latch } := by
  simp [beginSlot, h]

/-- beginSlot finds digit j: its slot, its byte and phase sampled (R203, R205). -/
theorem beginSlot_slot {s : State} {i j : Nat} (h : nextEnabled s i = some j) :
    beginSlot s i =
      { state := .slot, idx := BitVec.ofNat 4 j, cnt := s.dwell, lit := slotLit s j, latch := fbAt s j } := by
  simp [beginSlot, h]

/-- Everything the sequencer can do in a cycle (R210): it stays, counts a tick down, begins a slot or the gap, or returns
to IDLE. -/
theorem seqStep_cases (s : State) :
    (s.seq.state = .idle ∧ passStarts s = true ∧ seqStep s = beginSlot s 0) ∨
    (s.seq.state = .idle ∧ passStarts s = false ∧ seqStep s = s.seq) ∨
    (s.seq.state ≠ .idle ∧ dwellOver s = false ∧ passStarts s = false ∧ seqStep s = countDown s) ∨
    (s.seq.state = .slot ∧ dwellOver s = true ∧ passStarts s = false ∧
      seqStep s = beginSlot s (s.seq.idx.toNat + 1)) ∨
    (s.seq.state = .gap ∧ dwellOver s = true ∧ passStarts s = true ∧ seqStep s = beginSlot s 0) ∨
    (s.seq.state = .gap ∧ dwellOver s = true ∧ passStarts s = false ∧ seqStep s = toIdle s) := by
  cases hs : s.seq.state <;> cases hd : dwellOver s <;> cases hp : passStarts s <;>
    simp_all [seqStep, passStarts]

/-- A tick wraps the prescaler and counts a millisecond (R200, R201). -/
theorem timeBase_cases (s : State) :
    (tick s = true ∧ nextPresc s = 0 ∧ nextNow s = s.nowMs + 1) ∨
    (tick s = false ∧ nextPresc s = s.presc + 1 ∧ nextNow s = s.nowMs) := by
  cases h : tick s <;> simp [nextPresc, nextNow, h]

/-- pend after a cycle (R246). -/
theorem mergePend_eq (s : State) (requested : Bool) :
    mergePend s requested = (requested || (!passStarts s && s.pend)) := by
  cases requested <;> cases h : passStarts s <;> simp [mergePend, h]

end Sys2Proof.Machine
end

