-- ==== Sys2Proof/Laws/Cycle.lean ====
section
/-!
SUPPORT. What a bus operation can write, and what a step can do, said once (spec/44_lifecycle.md R246): every proof about
step starts from `step_cases`.
-/

namespace Sys2Proof.Machine

/-- What a bus operation never writes: the parameters, the time base, the sequencer, and the model's own fields. -/
def BusFrame (s t : State) : Prop :=
  t.cfg = s.cfg ∧ t.presc = s.presc ∧ t.nowMs = s.nowMs ∧ t.seq = s.seq ∧ t.inputs = s.inputs ∧ t.rdata = s.rdata

/-- A command stays in the frame of the bus operations. -/
theorem busFrame_of_commandFrame {s t : State} (h : CommandFrame s t) : BusFrame s t := by
  unfold CommandFrame at h
  refine ⟨?_, ?_, ?_, ?_, ?_, ?_⟩ <;> rw [h]

/-- A word written to CMD: its command runs, or a reserved opcode is rejected (R90, R98). -/
theorem execWord_cases (w : Word) (s : State) :
    (∃ i t, decode w = .ok i ∧ exec i s = .next t ∧ execWord w s = .next t ∧ CommandFrame s t) ∨
    (∃ e, decode w = .error e ∧ execWord w s = .next (reject s)) := by
  cases h : decode w with
  | ok i =>
    obtain ⟨t, ht, hf⟩ := exec_frame i s
    exact .inl ⟨i, t, rfl, ht, by simp [execWord, h, ht], hf⟩
  | error e => exact .inr ⟨e, rfl, by simp [execWord, h]⟩

/-- What a write to each address does (spec/10_state.md R28 to R42). -/
theorem writeReg_cases (a : BitVec 4) (w : Word) (s : State) :
    (a = addrCmd ∧ writeReg a w s = execWord w s) ∨
    (a = addrArg ∧ writeReg a w s = .next (writeArg w s)) ∨
    (a = addrStatus ∧ writeReg a w s = .next (writeStatus w s)) ∨
    (a = addrConfig ∧ writeReg a w s = .next (writeConfig w s)) ∨
    (a = addrBlinkIv ∧ writeReg a w s = .next (writeBlinkIv w s)) ∨
    (a = addrUnkGlyph ∧ writeReg a w s = .next (writeUnkGlyph w s)) ∨
    (a = addrCtrl ∧ writeReg a w s = .next (writeCtrl w s)) ∨
    ((a = addrResult ∨ 8 ≤ a.toNat) ∧ writeReg a w s = .next (reject s)) := by
  have ha : a = 0 ∨ a = 1 ∨ a = 2 ∨ a = 3 ∨ a = 4 ∨ a = 5 ∨ a = 6 ∨ a = 7 ∨ (8 ≤ a.toNat ∧ ¬ a.toNat < 8) := by
    revert a; decide
  rcases ha with rfl | rfl | rfl | rfl | rfl | rfl | rfl | rfl | ⟨h, h'⟩
  · exact .inl ⟨rfl, rfl⟩
  · exact .inr (.inl ⟨rfl, rfl⟩)
  · exact .inr (.inr (.inr (.inr (.inr (.inr (.inr ⟨.inl rfl, rfl⟩))))))
  · exact .inr (.inr (.inl ⟨rfl, rfl⟩))
  · exact .inr (.inr (.inr (.inl ⟨rfl, rfl⟩)))
  · exact .inr (.inr (.inr (.inr (.inl ⟨rfl, rfl⟩))))
  · exact .inr (.inr (.inr (.inr (.inr (.inl ⟨rfl, rfl⟩)))))
  · exact .inr (.inr (.inr (.inr (.inr (.inr (.inl ⟨rfl, rfl⟩))))))
  · refine .inr (.inr (.inr (.inr (.inr (.inr (.inr ⟨.inr h, ?_⟩))))))
    have hne : ∀ b : BitVec 4, b.toNat < 8 → a ≠ b := fun b hb e => h' (e ▸ hb)
    simp [writeReg, addrCmd, addrArg, addrStatus, addrConfig, addrBlinkIv, addrUnkGlyph, addrCtrl, hne]

/-- Every bus operation answers a next state, in `BusFrame`. -/
theorem busEffect_frame (op : BusOp) (s : State) : ∃ t, busEffect op s = .next t ∧ BusFrame s t := by
  have keep : BusFrame s s := ⟨rfl, rfl, rfl, rfl, rfl, rfl⟩
  cases op with
  | idle => exact ⟨s, rfl, keep⟩
  | read a => exact ⟨s, rfl, keep⟩
  | write a w =>
    simp only [busEffect]
    rcases writeReg_cases a w s with ⟨_, e⟩ | ⟨_, e⟩ | ⟨_, e⟩ | ⟨_, e⟩ | ⟨_, e⟩ | ⟨_, e⟩ | ⟨_, e⟩ | ⟨_, e⟩ <;> rw [e]
    · rcases execWord_cases w s with ⟨i, t, _, _, e, hf⟩ | ⟨_, _, e⟩ <;> rw [e]
      · exact ⟨t, rfl, busFrame_of_commandFrame hf⟩
      · exact ⟨_, rfl, keep⟩
    · exact ⟨_, rfl, keep⟩
    · refine ⟨_, rfl, ?_⟩; unfold writeStatus; split <;> exact keep
    · refine ⟨_, rfl, ?_⟩; unfold writeConfig rejectUnless; split
      · exact keep
      · split <;> exact keep
    · refine ⟨_, rfl, ?_⟩; unfold writeBlinkIv; dsimp only; split <;> exact keep
    · refine ⟨_, rfl, ?_⟩; unfold writeUnkGlyph; split <;> exact keep
    · exact ⟨_, rfl, keep⟩
    · exact ⟨_, rfl, keep⟩

/-- What a step can do: a reset cycle, or the bus operation's writes committed with the clock's. -/
theorem step_cases {s t : State} (h : step s = .next t) :
    ((thisInput s).rst = true ∧ t = resetEdge s) ∨
    ((thisInput s).rst = false ∧
      ∃ e, busEffect (thisInput s).op (s.setPend false) = .next e ∧ BusFrame (s.setPend false) e ∧
        t = commit s (thisInput s).op e) := by
  simp only [step, clockCycle, cycleWith] at h
  cases hr : (thisInput s).rst <;> simp only [hr, if_true, Bool.false_eq_true, if_false] at h
  · obtain ⟨e, he, rfl⟩ := mapNext_cases h
    obtain ⟨e', he', hf⟩ := busEffect_frame (thisInput s).op (s.setPend false)
    rw [he] at he'
    injection he' with he'
    subst he'
    exact .inr ⟨rfl, e, he, hf, rfl⟩
  · injection h with h
    exact .inl ⟨rfl, h.symm⟩

/-- The cycle that the host has planned first. -/
theorem thisInput_cons {s : State} {c : HostCycle} {rest : List HostCycle} (h : s.inputs = c :: rest) :
    thisInput s = c := by
  simp [thisInput, h]

/-- A host that has nothing more to do is idle. -/
theorem thisInput_nil {s : State} (h : s.inputs = []) : thisInput s = idleCycle := by
  simp [thisInput, h]

end Sys2Proof.Machine
end

