-- ==== Sys2Proof/Laws/PerInstr.lean ====
section
/-!
SUPPORT. A statement made once per constructor of Instr: the OP field of an assembled command is the opcode that the map
gives it (spec/30_encoding.md R97, R102).
-/

namespace Sys2Proof.Laws.OpcodeField

/-- The OP field of the encoded command is its opcode. -/
def Statement (i : Instr) : Prop := fieldOp (encode i) = opcode i

/-- The OP field of a packed word. -/
theorem fieldOp_pack (op d s b : Byte) : fieldOp (packWord op d s b) = op := by
  apply BitVec.eq_of_getLsbD_eq
  intro k hk
  simp only [fieldOp, packWord, BitVec.getLsbD_extractLsb', BitVec.getLsbD_append]
  simp [hk, show ¬ 24 + k < 8 by omega, show ¬ 24 + k - 8 < 8 by omega, show ¬ 24 + k - 8 - 8 < 8 by omega,
    show 24 + k - 8 - 8 - 8 = k by omega]

theorem nop : Statement .nop := fieldOp_pack _ _ _ _
theorem init : Statement .init := fieldOp_pack _ _ _ _
theorem clear : Statement .clear := fieldOp_pack _ _ _ _
theorem refresh : Statement .refresh := fieldOp_pack _ _ _ _
theorem setByte (d : Nat) (b : Byte) : Statement (.setByte d b) := fieldOp_pack _ _ _ _
theorem setDigit (d n : Nat) : Statement (.setDigit d n) := fieldOp_pack _ _ _ _
theorem setChar (d : Nat) (c : Byte) : Statement (.setChar d c) := fieldOp_pack _ _ _ _
theorem setSeg (d k : Nat) (on : Bool) : Statement (.setSeg d k on) := fieldOp_pack _ _ _ _
theorem setInt (lz : Bool) : Statement (.setInt lz) := fieldOp_pack _ _ _ _
theorem shift (k : Int) : Statement (.shift k) := fieldOp_pack _ _ _ _
theorem enDigit (d : Nat) (on : Bool) : Statement (.enDigit d on) := fieldOp_pack _ _ _ _
theorem blinkDigit (d : Nat) (on : Bool) : Statement (.blinkDigit d on) := fieldOp_pack _ _ _ _
theorem enAll (on : Bool) : Statement (.enAll on) := fieldOp_pack _ _ _ _
theorem blinkAll (on : Bool) : Statement (.blinkAll on) := fieldOp_pack _ _ _ _
theorem getByte (d : Nat) : Statement (.getByte d) := fieldOp_pack _ _ _ _
theorem getSeg (d k : Nat) : Statement (.getSeg d k) := fieldOp_pack _ _ _ _
theorem glyphDigit (n : Nat) : Statement (.glyphDigit n) := fieldOp_pack _ _ _ _
theorem glyphChar (c : Byte) : Statement (.glyphChar c) := fieldOp_pack _ _ _ _
theorem glyphMinus : Statement .glyphMinus := fieldOp_pack _ _ _ _
theorem glyphDot : Statement .glyphDot := fieldOp_pack _ _ _ _
theorem segSet (b : Byte) (k : Nat) (on : Bool) : Statement (.segSet b k on) := fieldOp_pack _ _ _ _
theorem segTest (b : Byte) (k : Nat) : Statement (.segTest b k) := fieldOp_pack _ _ _ _
theorem invert (b : Byte) : Statement (.invert b) := fieldOp_pack _ _ _ _
theorem inRange : Statement .inRange := fieldOp_pack _ _ _ _

end Sys2Proof.Laws.OpcodeField
end

