-- ==== Sys2Proof/Laws/Decode.lean ====
section
/-!
SUPPORT. The fields of a packed command word, and the operands that the fields give back.
-/

namespace Sys2Proof

section

variable (op d s b : Byte)

@[simp] theorem fieldOp_packWord : fieldOp (packWord op d s b) = op := Laws.OpcodeField.fieldOp_pack op d s b

@[simp] theorem fieldD_packWord : fieldD (packWord op d s b) = d := by
  apply BitVec.eq_of_getLsbD_eq
  intro k hk
  simp only [fieldD, packWord, BitVec.getLsbD_extractLsb', BitVec.getLsbD_append]
  simp [hk, show ¬ 16 + k < 8 by omega, show ¬ 16 + k - 8 < 8 by omega, show 16 + k - 8 - 8 = k by omega]

@[simp] theorem fieldS_packWord : fieldS (packWord op d s b) = s := by
  apply BitVec.eq_of_getLsbD_eq
  intro k hk
  simp only [fieldS, packWord, BitVec.getLsbD_extractLsb', BitVec.getLsbD_append]
  simp [hk]

@[simp] theorem fieldB_packWord : fieldB (packWord op d s b) = b := by
  apply BitVec.eq_of_getLsbD_eq
  intro k hk
  simp only [fieldB, packWord, BitVec.getLsbD_extractLsb', BitVec.getLsbD_append]
  simp [hk]

end

/-- The flag of a flag byte. -/
@[simp] theorem flagByte_getLsbD (on : Bool) : (flagByte on).getLsbD 0 = on := by cases on <;> rfl

/-- An index that fits its field is read back from it. -/
theorem toNat_ofNat_of_fits {n : Nat} (h : fitsField n = true) : (BitVec.ofNat 8 n).toNat = n := by
  simp only [fitsField, decide_eq_true_eq] at h
  simp [h]

/-- A shift that fits its field is read back from it, sign and all. -/
theorem toInt_ofInt_of_fits {k : Int} (h : fitsShift k = true) : (BitVec.ofInt 8 k).toInt = k := by
  simp only [fitsShift, Bool.and_eq_true, decide_eq_true_eq] at h
  rw [BitVec.toInt_ofInt]
  simp only [Int.bmod]
  omega

end Sys2Proof
end

