-- ==== Sys2Proof/Laws/Glyph.lean ====
section
/-!
SUPPORT. The operand checks and the segment functions, each said once.
-/

namespace Sys2Proof.Machine

section

variable (s : State)

/-- R92. -/
theorem digitValid_iff (d : Nat) : digitValid s d = true ↔ d < s.len := by
  simp [digitValid]

/-- R93, R120. -/
theorem segValid_iff (k : Nat) : segValid s k = true ↔ k < 7 ∨ (k = 7 ∧ s.hasDp = true) := by
  simp only [segValid, Bool.or_eq_true, decide_eq_true_eq, Bool.and_eq_true, beq_iff_eq]
  constructor <;> rintro (h | h)
  · exact .inl (by omega)
  · exact .inr h
  · exact .inl (by omega)
  · exact .inr h

/-- A valid segment index is a bit of a byte. -/
theorem segValid_lt {k : Nat} (h : segValid s k = true) : k < 8 := by
  rcases (segValid_iff s k).1 h with h | ⟨h, _⟩ <;> omega

/-- R124. -/
theorem valueInRange_iff (v : Int) (L : Nat) :
    valueInRange v L = true ↔ -((10 : Int) ^ (L - 1) - 1) ≤ v ∧ v ≤ (10 : Int) ^ L - 1 := by
  simp only [valueInRange, Bool.and_eq_true, decide_eq_true_eq]

/-- The bits of a byte with one segment set or cleared (R121). -/
theorem setSegment_getLsbD (b : Byte) {k : Nat} (on : Bool) (h : segValid s k = true) (j : Nat) :
    (setSegment s b k on).getLsbD j = if j = k then on else b.getLsbD j := by
  have hk := segValid_lt s h
  simp only [setSegment, h, if_true]
  by_cases hj : j < 8
  · cases on <;> by_cases e : j = k <;> simp [e, hj, hk] <;> omega
  · have e : j ≠ k := by omega
    have hz : b.getLsbD j = false := BitVec.getLsbD_of_ge b j (by omega)
    cases on <;> simp [e, hj, hz]

/-- An invalid segment index leaves the byte (R121). -/
theorem setSegment_invalid (b : Byte) {k : Nat} (on : Bool) (h : segValid s k = false) : setSegment s b k on = b := by
  simp [setSegment, h]

end

end Sys2Proof.Machine
end

