-- ==== Sys2Proof/Laws/Outputs.lean ====
section
/-!
SUPPORT. When the output ports are released (spec/43_scan_sequencer.md R220 to R222), said once: outside a lit slot every
line is; in a lit slot of a blank byte the segment lines are (the part of spec/60_exceptions.md R272 on a cleared display
that R165 and R222 leave room for, notes/assumptions/22.md); and with every digit disabled no slot begins (R272, R204).
-/

namespace Sys2Proof.Machine

/-- Outside a lit slot every line is released: each segment line at its unlit level, each digit line inactive at eff(0). -/
theorem released_of_not_litNow {s : State} (h : litNow s = false) (i k : Nat) :
    segOut s k = s.pol ∧ digAct s i = false ∧ digDuty s i = effDuty s 0 := by
  simp [segOut, segLogical, digAct, digDuty, h]

/-- A blank byte lights no segment line, in a lit slot either. -/
theorem segOut_of_blank {s : State} (h : s.seq.latch = blank) (k : Nat) : segOut s k = s.pol := by
  simp [segOut, segLogical, h, blank]

/-- With every digit of the display disabled, what begins is the gap, in which every line is released. -/
theorem litNow_of_all_disabled {s : State} (h : ∀ j < s.len, enAt s j = false) (i : Nat) :
    litNow { s with seq := beginSlot s i } = false := by
  rw [beginSlot_gap (nextEnabled_eq_none.2 fun j hj _ => h j hj)]
  rfl

end Sys2Proof.Machine
end

