-- ==== Sys2Proof/Machine/Assembler.lean ====
section
/-!
DEFINITION. The assembler lines of spec/30_encoding.md R100 and the pseudo-instructions of R101, as the host cycles they
stand for, and their text, written and read. They say what a host program is; the machine itself does not read them.
-/

namespace Sys2Proof.Machine

/-- One line of a host program (R100). -/
inductive AsmLine where
  /-- A command line: one `WR CMD, w` with w the encoded word. -/
  | command (i : Instr)
  /-- `WR reg, imm32`. -/
  | wr (a : BitVec 4) (w : Word)
  /-- `RD reg`. -/
  | rd (a : BitVec 4)
  /-- `IDLE n`. -/
  | idle (n : Nat)
  /-- `RST`. -/
  | rst
deriving DecidableEq, Repr

/-- The clock cycles that a line stands for (R100). -/
def lineCycles : AsmLine → List HostCycle
  | .command i => [writeCycle addrCmd (encode i)]
  | .wr a w => [writeCycle a w]
  | .rd a => [{ rst := false, op := .read a }]
  | .idle n => List.replicate n idleCycle
  | .rst => [{ rst := true, op := .idle }]

/-- The host's inputs for a program, a list of lines. -/
def programCycles (p : List AsmLine) : List HostCycle := p.flatMap lineCycles

/-! ## Pseudo-instructions (R101) -/

/-- `CLR_REJ`. -/
def pseudoClrRej : List AsmLine := [.wr addrStatus 0x00000004]

/-- `LDARG v`, v as a 32-bit two's-complement word. -/
def pseudoLdArg (v : Int) : List AsmLine := [.wr addrArg (BitVec.ofInt 32 v)]

/-- `SHOW_INT v, lz`. -/
def pseudoShowInt (v : Int) (lz : Bool) : List AsmLine :=
  [.wr addrArg (BitVec.ofInt 32 v), .command (.setInt lz)]

/-- `CFG pol, dp, len, dwell, bright`. -/
def pseudoCfg (pol dp : Bool) (len : BitVec 4) (dwell bright : Byte) : List AsmLine :=
  [.wr addrConfig (0#8 ++ bright ++ dwell ++ len ++ 0#2 ++ BitVec.ofBool dp ++ BitVec.ofBool pol)]

/-- `WAIT_MS n`: n milliseconds of a block with CLK_PER_MS clock cycles each. -/
def pseudoWaitMs (c : Config) (n : Nat) : List AsmLine := [.idle (n * c.clkPerMs)]

/-- `BLANK d`. -/
def pseudoBlank (d : Nat) : List AsmLine := [.command (.setByte d 0)]

/-! ## Text -/

/-- The mnemonic (R97). -/
def mnemonic : Instr → String
  | .nop => "NOP"
  | .init => "INIT"
  | .clear => "CLEAR"
  | .refresh => "REFRESH"
  | .setByte _ _ => "SET_BYTE"
  | .setDigit _ _ => "SET_DIGIT"
  | .setChar _ _ => "SET_CHAR"
  | .setSeg _ _ _ => "SET_SEG"
  | .setInt _ => "SET_INT"
  | .shift _ => "SHIFT"
  | .enDigit _ _ => "EN_DIGIT"
  | .blinkDigit _ _ => "BLINK_DIGIT"
  | .enAll _ => "EN_ALL"
  | .blinkAll _ => "BLINK_ALL"
  | .getByte _ => "GET_BYTE"
  | .getSeg _ _ => "GET_SEG"
  | .glyphDigit _ => "GLYPH_DIGIT"
  | .glyphChar _ => "GLYPH_CHAR"
  | .glyphMinus => "GLYPH_MINUS"
  | .glyphDot => "GLYPH_DOT"
  | .segSet _ _ _ => "SEG_SET"
  | .segTest _ _ => "SEG_TEST"
  | .invert _ => "INVERT"
  | .inRange => "IN_RANGE"

/-- The operands of a command line, in the order of R100. -/
def lineOperands : Instr → List Int
  | .nop => []
  | .init => []
  | .clear => []
  | .refresh => []
  | .setByte d b => [d, b.toNat]
  | .setDigit d n => [d, n]
  | .setChar d c => [d, c.toNat]
  | .setSeg d k on => [d, k, on.toNat]
  | .setInt lz => [lz.toNat]
  | .shift k => [k]
  | .enDigit d on => [d, on.toNat]
  | .blinkDigit d on => [d, on.toNat]
  | .enAll on => [on.toNat]
  | .blinkAll on => [on.toNat]
  | .getByte d => [d]
  | .getSeg d k => [d, k]
  | .glyphDigit n => [n]
  | .glyphChar c => [c.toNat]
  | .glyphMinus => []
  | .glyphDot => []
  | .segSet b k on => [b.toNat, k, on.toNat]
  | .segTest b k => [b.toNat, k]
  | .invert b => [b.toNat]
  | .inRange => []

/-- A command line's text, its numbers in decimal (R100). -/
def lineText (i : Instr) : String :=
  match lineOperands i with
  | [] => mnemonic i
  | os => mnemonic i ++ " " ++ ", ".intercalate (os.map toString)

/-! ## Reading a line of text (R100, R101) -/

/-- A piece of a line: a run of characters, a quoted character's code, or a comma. -/
inductive Token where
  /-- A mnemonic, a register name or a number. -/
  | word (cs : List Char)
  /-- A character in single quotes: its code. -/
  | quoted (n : Nat)
  /-- The separator of operands. -/
  | comma
deriving DecidableEq, Repr

/-- The word read so far, when there is one. -/
def flushWord (cur : List Char) : List Token := if cur = [] then [] else [.word cur]

/-- The tokens of a line, up to the comment that ';' starts; `cur` is the word read so far. -/
def tokens (cur : List Char) : List Char → List Token
  | [] => flushWord cur
  | '\'' :: c :: '\'' :: rest => flushWord cur ++ .quoted c.toNat :: tokens [] rest
  | c :: rest =>
    if c = ';' then flushWord cur
    else if c = ',' then flushWord cur ++ .comma :: tokens [] rest
    else if c = ' ' ∨ c = '\t' then flushWord cur ++ tokens [] rest
    else tokens (cur ++ [c]) rest

/-- A digit of a number, in base ten or sixteen. -/
def digitOfChar (hex : Bool) (c : Char) : Option Nat :=
  if '0' ≤ c ∧ c ≤ '9' then some (c.toNat - '0'.toNat)
  else if hex ∧ 'a' ≤ c ∧ c ≤ 'f' then some (c.toNat - 'a'.toNat + 10)
  else if hex ∧ 'A' ≤ c ∧ c ≤ 'F' then some (c.toNat - 'A'.toNat + 10)
  else none

/-- An unsigned number, its digits most significant first; `acc` is the number read so far. -/
def readDigits (hex : Bool) (acc : Nat) : List Char → Option Nat
  | [] => some acc
  | c :: rest =>
    match digitOfChar hex c with
    | some n => readDigits hex (acc * (if hex then 16 else 10) + n) rest
    | none => none

/-- A number: decimal, negative decimal, or hexadecimal after 0x. -/
def readNumber : List Char → Option Int
  | [] => none
  | '0' :: 'x' :: c :: rest => (readDigits true 0 (c :: rest)).map Int.ofNat
  | '-' :: c :: rest => (readDigits false 0 (c :: rest)).map fun n => -(n : Int)
  | c :: rest => (readDigits false 0 (c :: rest)).map Int.ofNat

/-- One operand: a number, or a quoted character of 8 bits (R94). -/
def readOperand : Token → Option Int
  | .word cs => readNumber cs
  | .quoted n => if n < 256 then some n else none
  | .comma => none

/-- The operands, separated by commas. -/
def readOperands : List Token → Option (List Int)
  | [] => some []
  | [t] => (readOperand t).map fun v => [v]
  | t :: .comma :: u :: rest =>
    match readOperand t, readOperands (u :: rest) with
    | some v, some vs => some (v :: vs)
    | _, _ => none
  | _ :: _ => none

/-- An unsigned operand of `bits` bits. -/
def asUnsigned (bits : Nat) (v : Int) : Option Nat :=
  if 0 ≤ v ∧ v < 2 ^ bits then some v.toNat else none

/-- A byte operand. -/
def asByte (v : Int) : Option Byte := (asUnsigned 8 v).map (BitVec.ofNat 8)

/-- A flag operand, 0 or 1. -/
def asFlag (v : Int) : Option Bool := if v = 0 then some false else if v = 1 then some true else none

/-- A 32-bit two's-complement or unsigned operand. -/
def asWord (v : Int) : Option Word :=
  if -(2 : Int) ^ 31 ≤ v ∧ v < 2 ^ 32 then some (BitVec.ofInt 32 v) else none

/-- The command that a mnemonic with its operands names (R100). -/
def readCommand (m : String) (os : List Int) : Option Instr :=
  match m, os with
  | "NOP", [] => some .nop
  | "INIT", [] => some .init
  | "CLEAR", [] => some .clear
  | "REFRESH", [] => some .refresh
  | "SET_BYTE", [d, b] => do return .setByte (← asUnsigned 8 d) (← asByte b)
  | "SET_DIGIT", [d, n] => do return .setDigit (← asUnsigned 8 d) (← asUnsigned 8 n)
  | "SET_CHAR", [d, c] => do return .setChar (← asUnsigned 8 d) (← asByte c)
  | "SET_SEG", [d, k, on] => do return .setSeg (← asUnsigned 8 d) (← asUnsigned 8 k) (← asFlag on)
  | "SET_INT", [lz] => do return .setInt (← asFlag lz)
  | "SHIFT", [k] => if fitsShift k then some (.shift k) else none
  | "EN_DIGIT", [d, on] => do return .enDigit (← asUnsigned 8 d) (← asFlag on)
  | "BLINK_DIGIT", [d, on] => do return .blinkDigit (← asUnsigned 8 d) (← asFlag on)
  | "EN_ALL", [on] => do return .enAll (← asFlag on)
  | "BLINK_ALL", [on] => do return .blinkAll (← asFlag on)
  | "GET_BYTE", [d] => do return .getByte (← asUnsigned 8 d)
  | "GET_SEG", [d, k] => do return .getSeg (← asUnsigned 8 d) (← asUnsigned 8 k)
  | "GLYPH_DIGIT", [n] => do return .glyphDigit (← asUnsigned 8 n)
  | "GLYPH_CHAR", [c] => do return .glyphChar (← asByte c)
  | "GLYPH_MINUS", [] => some .glyphMinus
  | "GLYPH_DOT", [] => some .glyphDot
  | "SEG_SET", [b, k, on] => do return .segSet (← asByte b) (← asUnsigned 8 k) (← asFlag on)
  | "SEG_TEST", [b, k] => do return .segTest (← asByte b) (← asUnsigned 8 k)
  | "INVERT", [b] => do return .invert (← asByte b)
  | "IN_RANGE", [] => some .inRange
  | _, _ => none

/-- A register's address, by its name (spec/10_state.md R27). -/
def readRegister (m : String) : Option (BitVec 4) :=
  match m with
  | "CMD" => some addrCmd
  | "ARG" => some addrArg
  | "RESULT" => some addrResult
  | "STATUS" => some addrStatus
  | "CONFIG" => some addrConfig
  | "BLINK_IV" => some addrBlinkIv
  | "UNK_GLYPH" => some addrUnkGlyph
  | "CTRL" => some addrCtrl
  | "NOW_MS" => some addrNowMs
  | "EN_MASK" => some addrEnMask
  | "BL_MASK" => some addrBlMask
  | "SEQ" => some addrSeq
  | _ => none

/-- A pseudo-instruction's expansion (R101). -/
def readPseudo (c : Config) (m : String) (os : List Int) : Option (List AsmLine) :=
  match m, os with
  | "CLR_REJ", [] => some pseudoClrRej
  | "LDARG", [v] => do let w ← asWord v; return [.wr addrArg w]
  | "SHOW_INT", [v, lz] => do let w ← asWord v; let f ← asFlag lz; return [.wr addrArg w, .command (.setInt f)]
  | "CFG", [pol, dp, len, dwell, bright] => do
    return pseudoCfg (← asFlag pol) (← asFlag dp) (BitVec.ofNat 4 (← asUnsigned 4 len)) (← asByte dwell) (← asByte bright)
  | "WAIT_MS", [n] => if 0 ≤ n then some (pseudoWaitMs c n.toNat) else none
  | "BLANK", [d] => do return pseudoBlank (← asUnsigned 8 d)
  | _, _ => none

/-- A line after its first word: a bus line with a register, or a command or pseudo-instruction with operands. -/
def readLine (c : Config) (m : String) (rest : List Token) : Option (List AsmLine) :=
  match m, rest with
  | "RST", [] => some [.rst]
  | "RD", [.word r] => (readRegister (String.ofList r)).map fun a => [.rd a]
  | "WR", [.word r, .comma, t] => do
    return [.wr (← readRegister (String.ofList r)) (← asWord (← readOperand t))]
  | "IDLE", [t] => do
    let n ← readOperand t
    if 0 ≤ n then return [.idle n.toNat] else none
  | _, _ => do
    let os ← readOperands rest
    match readCommand m os with
    | some i => return [.command i]
    | none => readPseudo c m os

/-- The lines that one line of text stands for: none for an empty line or a comment; `none` when it is no line of R100 or
R101. -/
def assembleLine (c : Config) (text : List Char) : Option (List AsmLine) :=
  match tokens [] text with
  | [] => some []
  | .word m :: rest => readLine c (String.ofList m) rest
  | _ => none

/-- The lines of a program's text, one line after another. -/
def assemble (c : Config) : List (List Char) → Option (List AsmLine)
  | [] => some []
  | l :: ls =>
    match assembleLine c l, assemble c ls with
    | some p, some q => some (p ++ q)
    | _, _ => none

end Sys2Proof.Machine
end

