-- ==== Sys2Proof/Tests/Slice0.lean ====
section
/-!
SUPPORT. Tests of the model against the spec's own words and vectors (spec/30_encoding.md R102, spec/95_test_vectors.md
sections 1 and 2), and for every obligation with hypotheses a theorem `witness_<its name>`: a concrete state and operands
that meet them.
-/

namespace Sys2Proof.Tests

open Sys2Proof Sys2Proof.Machine

/-! ## Form: one ill-formed command for each check -/

theorem test_digit_index_too_big : (Instr.setByte 256 0x5B).wellFormed = false := by decide
theorem test_digit_value_too_big : (Instr.setDigit 0 256).wellFormed = false := by decide
theorem test_character_digit_too_big : (Instr.setChar 256 0x48).wellFormed = false := by decide
theorem test_segment_too_big : (Instr.setSeg 0 256 true).wellFormed = false := by decide
theorem test_segment_digit_too_big : (Instr.setSeg 256 0 true).wellFormed = false := by decide
theorem test_shift_too_big : (Instr.shift 128).wellFormed = false := by decide
theorem test_shift_too_small : (Instr.shift (-129)).wellFormed = false := by decide
theorem test_enable_index_too_big : (Instr.enDigit 256 true).wellFormed = false := by decide
theorem test_blink_index_too_big : (Instr.blinkDigit 256 true).wellFormed = false := by decide
theorem test_getter_indices_too_big :
    (Instr.getByte 256).wellFormed = false ∧ (Instr.getSeg 256 0).wellFormed = false ∧
    (Instr.getSeg 0 256).wellFormed = false := by decide
theorem test_query_operands_too_big :
    (Instr.glyphDigit 256).wellFormed = false ∧ (Instr.segSet 0 256 true).wellFormed = false ∧
    (Instr.segTest 0 256).wellFormed = false := by decide
theorem test_well_formed_at_the_bounds :
    (Instr.setSeg 255 255 true).wellFormed = true ∧ (Instr.shift 127).wellFormed = true ∧
    (Instr.shift (-128)).wellFormed = true ∧ (Instr.setDigit 255 255).wellFormed = true := by decide

/-! ## Decoding: a word of each command, from R97, R102 and spec/95_test_vectors.md -/

theorem test_decode_nop : decode 0x00FFFFFF = .ok .nop := by decide
theorem test_decode_init : decode 0x01000000 = .ok .init := by decide
theorem test_decode_clear : decode 0x02000000 = .ok .clear := by decide
theorem test_decode_refresh : decode 0x03000000 = .ok .refresh := by decide
theorem test_decode_set_byte : decode 0x1002005B = .ok (.setByte 2 0x5B) := by decide
theorem test_decode_set_byte_unused_field : decode 0x1002FF5B = .ok (.setByte 2 0x5B) := by decide
theorem test_decode_set_digit : decode 0x1103000A = .ok (.setDigit 3 10) := by decide
theorem test_decode_set_char : decode 0x12010048 = .ok (.setChar 1 0x48) := by decide
theorem test_decode_set_seg : decode 0x13030700 = .ok (.setSeg 3 7 false) := by decide
theorem test_decode_set_seg_ignored_bits : decode 0x130003FF = .ok (.setSeg 0 3 true) := by decide
theorem test_decode_set_int : decode 0x14000001 = .ok (.setInt true) := by decide
theorem test_decode_shift_down : decode 0x150000FD = .ok (.shift (-3)) := by decide
theorem test_decode_shift_up : decode 0x1500007F = .ok (.shift 127) := by decide
theorem test_decode_en_digit : decode 0x2000FF02 = .ok (.enDigit 0 false) := by decide
theorem test_decode_blink_digit : decode 0x21030001 = .ok (.blinkDigit 3 true) := by decide
theorem test_decode_en_all : decode 0x22000001 = .ok (.enAll true) := by decide
theorem test_decode_blink_all : decode 0x23000000 = .ok (.blinkAll false) := by decide
theorem test_decode_get_byte : decode 0x30030000 = .ok (.getByte 3) := by decide
theorem test_decode_get_seg : decode 0x31000600 = .ok (.getSeg 0 6) := by decide
theorem test_decode_glyph_digit : decode 0x320000FF = .ok (.glyphDigit 255) := by decide
theorem test_decode_glyph_char : decode 0x33000061 = .ok (.glyphChar 0x61) := by decide
theorem test_decode_glyph_minus : decode 0x34000000 = .ok .glyphMinus := by decide
theorem test_decode_glyph_dot : decode 0x35000000 = .ok .glyphDot := by decide
theorem test_decode_seg_set : decode 0x36010706 = .ok (.segSet 0x06 7 true) := by decide
theorem test_decode_seg_set_clear : decode 0x3600005B = .ok (.segSet 0x5B 0 false) := by decide
theorem test_decode_seg_test : decode 0x37000786 = .ok (.segTest 0x86 7) := by decide
theorem test_decode_invert : decode 0x3800003F = .ok (.invert 0x3F) := by decide
theorem test_decode_in_range : decode 0x39000000 = .ok .inRange := by decide
theorem test_decode_reserved_low : decode 0x04000000 = .error (.reservedOpcode 0x04) := by decide
theorem test_decode_reserved_high : decode 0xFF000000 = .error (.reservedOpcode 0xFF) := by decide
theorem test_encode_shift : encode (.shift (-1)) = 0x150000FF := by decide
theorem test_encode_seg_set : encode (.segSet 0x00 3 true) = 0x36010300 := by decide
theorem test_table_word : decodeTableWord 32 0x21030001 = some (.blinkDigit 3 true) := by decide
theorem test_table_word_reserved : decodeTableWord 32 0x50000000 = none := by decide

/-! ## A small machine -/

/-- Eight digits, two cycles a millisecond, the default digit table, and tables of distinct bytes for the open entries. -/
def demoConfig : Config where
  maxDigits := 8
  clkPerMs := 2
  digitGlyph := canonicalDigitGlyph
  letterGlyph := Vector.ofFn fun k => BitVec.ofNat 8 (k.val + 1)
  punctOpen := Vector.ofFn fun p => BitVec.ofNat 8 (p.val + 0xC0)
  unkGlyphReset := 0x49

/-- The start of spec/95_test_vectors.md section 2.2: INIT done, DLEN 4, fb[3..0] = [88, 44, 22, 11]. -/
def demo : State :=
  { State.resetOf demoConfig with init := true, dlen := 4, fb := [0x11, 0x22, 0x44, 0x88, 0, 0, 0, 0] }

/-- The same with the sequencer registers and the host's next cycles given. -/
def demoAt (q : SeqRegs) (ins : List HostCycle) : State := { demo with seq := q, inputs := ins }

/-- In the slot of digit 1, lit, one tick left. -/
def lastSlotTick : SeqRegs := { state := .slot, idx := 1, cnt := 1, lit := true, latch := 0x22 }

/-- In the gap, one tick left. -/
def lastGapTick : SeqRegs := { state := .gap, idx := 4, cnt := 1, lit := false, latch := 0x22 }

/-- At the start of a pass over the demo's four digits. -/
def passStart : SeqRegs := { state := .slot, idx := 0, cnt := 2, lit := true, latch := 0x11 }

/-- A cycle in which the host reads STATUS. -/
def readStatus : HostCycle := { rst := false, op := .read 0x3 }

/-- A field of the state after one step. -/
def afterStep {α : Type} (f : State → α) (s : State) : Option α :=
  match step s with
  | .next t => some (f t)
  | .fault _ => none
  | .refused _ => none

/-! ## Commands, one step each (spec/95_test_vectors.md sections 2.1 to 2.3 and 2.5) -/

theorem test_nop : exec .nop demo = .next demo := rfl
theorem test_init : exec .init (State.resetOf demoConfig) = .next { State.resetOf demoConfig with init := true } := rfl
theorem test_init_twice : exec .init demo = .next { demo with rej := true } := rfl
theorem test_clear : exec .clear demo = .next { demo with fb := [0, 0, 0, 0, 0, 0, 0, 0] } := rfl
theorem test_refresh : exec .refresh demo = .next { demo with pend := true } := rfl
theorem test_set_byte : exec (.setByte 2 0x5B) demo = .next { demo with fb := [0x11, 0x22, 0x5B, 0x88, 0, 0, 0, 0] } := rfl
theorem test_set_byte_at_dlen : exec (.setByte 4 0x5B) demo = .next { demo with rej := true } := rfl
theorem test_set_digit : exec (.setDigit 0 7) demo = .next { demo with fb := [0x07, 0x22, 0x44, 0x88, 0, 0, 0, 0] } := rfl
theorem test_set_digit_above_nine :
    exec (.setDigit 3 10) demo = .next { demo with fb := [0x11, 0x22, 0x44, 0x00, 0, 0, 0, 0] } := rfl
theorem test_set_char_letter :
    exec (.setChar 1 0x48) demo = .next { demo with fb := [0x11, 0x08, 0x44, 0x88, 0, 0, 0, 0] } := rfl
theorem test_set_char_unknown :
    exec (.setChar 0 0x23) demo = .next { demo with fb := [0x49, 0x22, 0x44, 0x88, 0, 0, 0, 0] } := rfl
theorem test_set_seg_clears :
    exec (.setSeg 3 7 false) demo = .next { demo with fb := [0x11, 0x22, 0x44, 0x08, 0, 0, 0, 0] } := rfl
theorem test_set_seg_without_point :
    exec (.setSeg 3 7 true) { demo with hasDp := false } = .next { demo with hasDp := false, rej := true } := rfl
theorem test_set_int_negative_zeros :
    exec (.setInt true) { demo with arg := 0xFFFFFFD6 } =
      .next { demo with arg := 0xFFFFFFD6, fb := [0x5B, 0x66, 0x3F, 0x40, 0, 0, 0, 0] } := rfl
theorem test_set_int_negative_suppressed :
    exec (.setInt false) { demo with arg := 0xFFFFFFFB } =
      .next { demo with arg := 0xFFFFFFFB, fb := [0x6D, 0x40, 0, 0, 0, 0, 0, 0] } := rfl
theorem test_shift_up : exec (.shift 1) demo = .next { demo with fb := [0, 0x11, 0x22, 0x44, 0, 0, 0, 0] } := rfl
theorem test_shift_down : exec (.shift (-3)) demo = .next { demo with fb := [0x88, 0, 0, 0, 0, 0, 0, 0] } := rfl
theorem test_en_digit :
    exec (.enDigit 1 false) demo = .next { demo with en := [true, false, true, true, true, true, true, true] } := rfl
theorem test_en_digit_at_dlen : exec (.enDigit 4 false) demo = .next { demo with rej := true } := rfl
theorem test_blink_digit :
    exec (.blinkDigit 3 true) demo = .next { demo with bl := [false, false, false, true, false, false, false, false] } := rfl
theorem test_blink_digit_above_dlen : exec (.blinkDigit 7 true) demo = .next { demo with rej := true } := rfl
theorem test_en_all :
    exec (.enAll false) demo = .next { demo with en := [false, false, false, false, true, true, true, true] } := rfl
theorem test_blink_all :
    exec (.blinkAll true) demo = .next { demo with bl := [true, true, true, true, false, false, false, false] } := rfl
theorem test_get_byte : exec (.getByte 2) demo = .next { demo with result := 0x44 } := rfl
theorem test_get_byte_at_dlen :
    exec (.getByte 4) { demo with result := 7 } = .next { demo with result := 0, rej := true } := rfl
theorem test_get_seg : exec (.getSeg 3 7) demo = .next { demo with result := 1 } := rfl
theorem test_get_seg_out_of_range :
    exec (.getSeg 0 8) { demo with result := 7 } = .next { demo with result := 0, rej := true } := rfl
theorem test_glyph_digit : exec (.glyphDigit 9) demo = .next { demo with result := 0x6F } := rfl
theorem test_glyph_digit_unsigned : exec (.glyphDigit 0x80) demo = .next { demo with result := 0 } := rfl
theorem test_glyph_char_degree : exec (.glyphChar 0xB0) demo = .next { demo with result := 0xC9 } := rfl
theorem test_glyph_char_lower_case : exec (.glyphChar 0x68) demo = .next { demo with result := 0x08 } := rfl
theorem test_glyph_minus : exec .glyphMinus demo = .next { demo with result := 0x40 } := rfl
theorem test_glyph_dot :
    exec .glyphDot { demo with hasDp := false } = .next { demo with hasDp := false, result := 0x80 } := rfl
theorem test_seg_set : exec (.segSet 0x06 7 true) demo = .next { demo with result := 0x86 } := rfl
theorem test_seg_set_invalid : exec (.segSet 0x12 255 true) demo = .next { demo with result := 0x12, rej := true } := rfl
theorem test_seg_test : exec (.segTest 0xFF 0) demo = .next { demo with result := 1 } := rfl
theorem test_seg_test_without_point :
    exec (.segTest 0x86 7) { demo with hasDp := false, result := 7 } =
      .next { demo with hasDp := false, result := 0, rej := true } := rfl
theorem test_invert : exec (.invert 0x3F) demo = .next { demo with result := 0xC0 } := rfl
theorem test_in_range_upper : exec .inRange { demo with arg := 9999 } = .next { demo with arg := 9999, result := 1 } := rfl
theorem test_in_range_below :
    exec .inRange { demo with arg := 0xFFFFFC18, result := 1 } = .next { demo with arg := 0xFFFFFC18, result := 0 } := rfl

/-! ## Registers (spec/95_test_vectors.md section 2.5) -/

theorem test_config_after_reset : regValue (State.resetOf demoConfig) 0x4 = 0x00C80282 := by decide
theorem test_masks_after_reset :
    regValue (State.resetOf demoConfig) 0x9 = 0xFF ∧ regValue (State.resetOf demoConfig) 0xA = 0 := by decide
theorem test_config_write :
    writeReg 0x4 0x12FF0F3F (State.resetOf demoConfig) =
      .next { State.resetOf demoConfig with pol := true, dlen := 3, dwell := 15, bright := 255 } := rfl
theorem test_config_write_keeps_legal :
    writeReg 0x4 0x00C80200 { State.resetOf demoConfig with dlen := 3, dwell := 15 } =
      .next { State.resetOf demoConfig with dlen := 3, hasDp := false, dwell := 2, bright := 200, rej := true } := rfl
theorem test_reserved_write : writeReg 0xC 0x1 demo = .next { demo with rej := true } := rfl
theorem test_reserved_opcode_before_init :
    writeReg 0x0 0x50000000 (State.resetOf demoConfig) = .next { State.resetOf demoConfig with rej := true } := rfl

/-! ## The clock cycle, the sequencer and the outputs (section 2.4) -/

/-- V-S1, edge 4: the slot samples the byte before the edge, not the one written in the same cycle; its digit line is active
though the sampled byte is blank (seg_out 0x00, dig_act 001). -/
theorem test_slot_samples_before_the_edge :
    afterStep (fun t => (seqWord t.seq, fbAt t 0, segOutByte t, digAct t 0))
      { State.resetOf { demoConfig with clkPerMs := 1 } with
        init := true, dlen := 3, dwell := 1, inputs := [writeCycle 0x0 0x10000006] } = some (0x00000105, 0x06, 0x00, true) := by decide

/-- V-S2, edge 6: no enabled digit is left, the gap begins. -/
theorem test_gap_when_no_digit_is_enabled :
    afterStep (fun t => seqWord t.seq)
      { State.resetOf { demoConfig with clkPerMs := 1 } with
        init := true, dlen := 3, en := [false, false, false, true, true, true, true, true],
        seq := { state := .slot, idx := 0, cnt := 1, lit := true, latch := 0 } } = some 0x00000232 := by decide

/-- V-S3, edge 7: with two cycles a millisecond, the tick that ends slot 0 begins slot 1. -/
theorem test_next_slot :
    afterStep (fun t => (t.nowMs, seqWord t.seq))
      { State.resetOf demoConfig with
        init := true, dlen := 3, presc := 1, nowMs := 2,
        seq := { state := .slot, idx := 0, cnt := 1, lit := true, latch := 0 } } = some (3, 0x00000215) := by decide

/-- P5, cycle 272: a single pass starts from IDLE and clears PEND; the read shows the state before the edge. -/
theorem test_single_pass_starts :
    afterStep (fun t => (t.rdata, t.pend, t.seq.state))
      { demo with cont := false, pend := true, inputs := [readStatus] } =
        some (0x00000009, false, .slot) := by decide

/-- The word that the host gives to a table row's test runs in the next step. -/
theorem test_with_fetch_word :
    afterStep (fun t => fbAt t 2) (demo.withFetchWord 32 0x1002005B) = some 0x5B := by decide

/-- V-S4: a reset cycle in the middle of a lit slot; the bus write of that cycle has no effect. -/
theorem test_reset_in_a_slot :
    afterStep (fun t => (seqWord t.seq, outEn t, segOutByte t, t.arg))
      { demoAt lastSlotTick [{ rst := true, op := .write 0x1 5 }] with pol := true } = some (0, false, 0, 0) := by decide

/-- The output table's common-anode rows, HAS_DP 1 and 0, and its dark row. -/
theorem test_outputs_common_anode :
    segOutByte { demoAt { lastSlotTick with latch := 0x86 } [] with pol := true } = 0x79 ∧
    segOutByte { demoAt { lastSlotTick with latch := 0x86 } [] with pol := true, hasDp := false } = 0xF9 ∧
    digDuty { demoAt lastSlotTick [] with pol := true } 1 = 55 ∧
    digDuty { demoAt lastSlotTick [] with pol := true } 0 = 255 ∧
    segOutByte { demoAt { lastSlotTick with lit := false } [] with pol := true } = 0xFF := by decide

/-- The output table's common-cathode rows. -/
theorem test_outputs_common_cathode :
    segOutByte (demoAt { lastSlotTick with latch := 0x86 } []) = 0x86 ∧
    segOutByte { demoAt { lastSlotTick with latch := 0x86 } [] with hasDp := false } = 0x06 ∧
    digDuty (demoAt lastSlotTick []) 1 = 200 ∧ digDuty (demoAt lastSlotTick []) 0 = 0 := by decide

/-- Section 2.3: the blink phase at its boundaries. -/
theorem test_blink_phase :
    blinkOn 250 249 = true ∧ blinkOn 250 250 = false ∧ blinkOn 250 500 = true ∧ blinkOn 250 0xFFFFFFFF = false ∧
    blinkOn 65535 65535 = false ∧ blinkOn 65535 131070 = true := by decide

/-- Section 2.1: two renderings with a collision or a cut, which never reach the buffer. -/
theorem test_rendered_out_of_range :
    (List.range 4).map (encodedInteger demoConfig (-1234) 4 false) = [0x66, 0x4F, 0x5B, 0x40] ∧
    (List.range 4).map (encodedInteger demoConfig 12345 4 true) = [0x6D, 0x66, 0x4F, 0x5B] := by decide

/-- R101: SHOW_INT and CFG as bus cycles. -/
theorem test_pseudo_instructions :
    programCycles (pseudoShowInt (-42) true) = [writeCycle 0x1 0xFFFFFFD6, writeCycle 0x0 0x14000001] ∧
    programCycles (pseudoCfg false true 3 2 200) = [writeCycle 0x4 0x00C80232] := by decide

/-! ## Witnesses: states and operands that meet the hypotheses of the obligations -/

/-- The demo state with any sequencer registers that fit, and any host. -/
theorem demoAt_inv (q : SeqRegs) (ins : List HostCycle) (h : SeqFits (demoAt q ins)) : Inv (demoAt q ins) where
  legal := by show 1 ≤ 8 ∧ 8 ≤ 9 ∧ 1 ≤ 2; decide
  sized := ⟨⟨rfl, rfl, rfl⟩, by show 4 ≤ 8; decide⟩
  lenPos := by show 1 ≤ 4; decide
  dwellPos := by show 1 ≤ 2; decide
  ivPos := by show 1 ≤ 250; decide
  prescBound := by show 0 < 2; decide
  untouched := fun hi => by cases hi
  beyond := by
    intro i h1 h2
    have h3 : 4 ≤ i := h1
    have h4 : i < 8 := h2
    interval_cases i <;> exact ⟨rfl, rfl, rfl⟩
  seqFits := h

theorem demo_sized : Sized demo := ⟨⟨rfl, rfl, rfl⟩, by show 4 ≤ 8; decide⟩

/-- The reset state of the demo's build, before INIT. -/
theorem demoReset_inv : Inv (State.resetOf demoConfig) where
  legal := by decide
  sized := ⟨⟨rfl, rfl, rfl⟩, by decide⟩
  lenPos := by decide
  dwellPos := by decide
  ivPos := by decide
  prescBound := by decide
  untouched := fun _ => ⟨rfl, rfl, rfl, rfl, rfl, rfl⟩
  beyond := by
    intro i h1 h2
    have h3 : 8 ≤ i := h1
    have h4 : i < 8 := h2
    omega
  seqFits := ⟨rfl, rfl, rfl⟩

theorem lastSlotTick_inv (ins : List HostCycle) : Inv (demoAt lastSlotTick ins) :=
  demoAt_inv _ _ ⟨by show 1 < 4; decide, by show 1 ≤ 1; decide, by show 1 ≤ 2; decide⟩

theorem lastGapTick_inv (ins : List HostCycle) : Inv (demoAt lastGapTick ins) :=
  demoAt_inv _ _ ⟨rfl, by show 1 ≤ 1; decide, by show 1 ≤ 2; decide, rfl⟩

theorem passStart_inv (ins : List HostCycle) : Inv (demoAt passStart ins) :=
  demoAt_inv _ _ ⟨by show 0 < 4; decide, by show 1 ≤ 2; decide, by show 2 ≤ 2; decide⟩

theorem witness_DecodeEncodeAgree :
    (Instr.setSeg 255 255 true).wellFormed = true ∧ (Instr.shift (-128)).wellFormed = true ∧
    (Instr.shift 127).wellFormed = true ∧ (Instr.segSet 0xFF 0 true).wellFormed = true := by decide

theorem witness_DecodedCommandsAreWellFormed :
    decode 0x13FFFFFF = .ok (.setSeg 255 255 true) ∧ decode 0x15000080 = .ok (.shift (-128)) := by decide

theorem witness_ReservedOpcodesAreRejected :
    (∃ e, decode 0x3A000000 = .error e) ∧ reservedOp (fieldOp 0x3A000000) = true ∧
    reservedOp (fieldOp 0x39FFFFFF) = false ∧ reservedOp 0x04 = true ∧ reservedOp 0x03 = false ∧
    reservedOp 0x0F = true ∧ reservedOp 0x10 = false ∧ reservedOp 0x16 = true ∧ reservedOp 0x15 = false ∧
    reservedOp 0x1F = true ∧ reservedOp 0x20 = false ∧ reservedOp 0x24 = true ∧ reservedOp 0x23 = false ∧
    reservedOp 0x2F = true ∧ reservedOp 0x30 = false ∧ reservedOp 0xFF = true :=
  ⟨⟨_, rfl⟩, by decide⟩

theorem witness_UnusedFieldsAreIgnored :
    fieldOp 0x1002005B = fieldOp 0x1002FF5B ∧
    (0x1002005B : Word) &&& usedBits (fieldOp 0x1002005B) = 0x1002FF5B &&& usedBits (fieldOp 0x1002FF5B) ∧
    fieldOp 0x360006FF = fieldOp 0x36FE06FF ∧
    (0x360006FF : Word) &&& usedBits (fieldOp 0x360006FF) = 0x36FE06FF &&& usedBits (fieldOp 0x36FE06FF) := by decide

theorem witness_StepRunsTheDecodedCommand :
    (demoAt passStart [writeCycle 0x0 0x1002005B]).inputs = writeCycle 0x0 0x1002005B :: [] ∧
    decode 0x1002005B = .ok (.setByte 2 0x5B) := ⟨rfl, by decide⟩

theorem witness_ResetCycleGivesTheResetState :
    (demoAt lastSlotTick [{ rst := true, op := .write 0x1 5 }]).inputs = { rst := true, op := .write 0x1 5 } :: [] := rfl

theorem witness_StepKeepsInv :
    (Inv (demoAt lastSlotTick []) ∧ ∃ t, step (demoAt lastSlotTick []) = .next t) ∧
    (Inv (State.resetOf demoConfig) ∧ ∃ t, step (State.resetOf demoConfig) = .next t) :=
  ⟨⟨lastSlotTick_inv [], _, rfl⟩, demoReset_inv, _, rfl⟩

theorem witness_BusAndSequencerOrderDoesNotMatter :
    (demoAt lastSlotTick [writeCycle 0x0 0x03000000]).inputs = { rst := false, op := .write 0x0 0x03000000 } :: [] := rfl

theorem witness_SequencerIgnoresTheBusOfItsCycle :
    (∃ t, step { demoAt lastSlotTick [] with inputs := { rst := false, op := .write 0x0 0x22000000 } :: [] } = .next t) ∧
    ∃ t, step { demoAt lastSlotTick [] with inputs := { rst := false, op := .idle } :: [] } = .next t :=
  ⟨⟨_, rfl⟩, _, rfl⟩

theorem witness_IdleCycleMovesOnlyTimeAndSequencer :
    (demoAt lastGapTick []).inputs = [] ∧ (demoAt lastGapTick [idleCycle]).inputs = idleCycle :: [] := ⟨rfl, rfl⟩

theorem witness_ReadsHaveNoSideEffect :
    (∃ t, step { demo with inputs := { rst := false, op := .read 0xB } :: [] } = .next t) ∧
    (∃ t, step { demo with inputs := { rst := false, op := .read 0xC } :: [] } = .next t) ∧
    (∃ t, step { demo with inputs := { rst := false, op := .read 0x0 } :: [] } = .next t) ∧
    (∃ t, step { demo with inputs := writeCycle 0x1 5 :: [] } = .next t) ∧
    ∃ u, step { demo with inputs := idleCycle :: [] } = .next u :=
  ⟨⟨_, rfl⟩, ⟨_, rfl⟩, ⟨_, rfl⟩, ⟨_, rfl⟩, _, rfl⟩

theorem witness_NopHasNoEffect : fieldOp 0x00FFFFFF = 0x00 := by decide

theorem witness_InitIsAcceptedOnce :
    fieldOp 0x01000000 = 0x01 ∧ (State.resetOf demoConfig).init = false ∧ demo.init = true := by decide

theorem witness_CommandsBeforeInitAreRejected :
    (State.resetOf demoConfig).init = false ∧ Instr.clear ≠ .nop ∧ Instr.clear ≠ .init := by decide

/-- REFRESH in IDLE with CONT = 0; the next cycle reads STATUS, as in the example of R245; and for R210's IDLE row a state
that starts a pass by CONT, one that starts it by a request, and two that do not start one. -/
theorem witness_RefreshRequestsOnePass :
    fieldOp 0x03000000 = 0x03 ∧ demo.init = true ∧ (State.resetOf demoConfig).init = false ∧
    { demo with cont := false, inputs := [writeCycle 0x0 0x03000000] }.inputs = writeCycle 0x0 0x03000000 :: [] ∧
    demo.seq.state = .idle ∧ { demo with cont := false }.cont = false ∧ demo.pend = false ∧
    (thisInput (demoAt SeqRegs.reset [readStatus])).rst = false ∧
    (∀ v, (thisInput (demoAt SeqRegs.reset [readStatus])).op = .write 0x0 v → fieldOp v ≠ 0x03) ∧
    (∃ u, step { demoAt SeqRegs.reset [readStatus] with cont := false, pend := true } = .next u) ∧
    (∃ u, step (demoAt SeqRegs.reset [readStatus]) = .next u) ∧ (demoAt SeqRegs.reset [readStatus]).cont = true ∧
    ¬ ({ demo with cont := false }.init = true ∧ ({ demo with cont := false }.cont = true ∨ demo.pend = true)) ∧
    ¬ ((State.resetOf demoConfig).init = true ∧
      ((State.resetOf demoConfig).cont = true ∨ (State.resetOf demoConfig).pend = true)) :=
  ⟨by decide, rfl, rfl, rfl, rfl, rfl, rfl, rfl, (fun _ h => nomatch h), ⟨_, rfl⟩, ⟨_, rfl⟩, rfl, by decide, by decide⟩

theorem witness_OnlyInitAndResetChangeThePhase :
    (∃ t, step { State.resetOf demoConfig with inputs := [writeCycle 0x0 0x01000000] } = .next t ∧ t.init = true) ∧
    (State.resetOf demoConfig).init = false ∧
    (∃ t, step (demoAt lastSlotTick [{ rst := true, op := .idle }]) = .next t ∧ t.init = false) ∧
    (demoAt lastSlotTick [{ rst := true, op := .idle }]).init = true :=
  ⟨⟨_, rfl, rfl⟩, rfl, ⟨_, rfl, rfl⟩, rfl⟩

theorem witness_ConfigurationIsFrozenAfterInit :
    (demoAt passStart [writeCycle 0x4 0]).init = true ∧ (thisInput (demoAt passStart [writeCycle 0x4 0])).rst = false ∧
    ∃ t, step (demoAt passStart [writeCycle 0x4 0]) = .next t := ⟨rfl, rfl, _, rfl⟩

theorem witness_ParametersStayAndInputsAdvance : ∃ t, step (demoAt passStart [writeCycle 0x4 0]) = .next t := ⟨_, rfl⟩

/-- A bus write that is an event of R261 in the demo state, one for each event that R261 lists there, in the order of the
table from event 2 on (events 1 and 8 need a state before INIT). -/
theorem witness_rejEvents :
    rejEvent demo (.write 0x0 0x01000000) ∧ rejEvent demo (.write 0x0 0x3A000000) ∧
    rejEvent demo (.write 0x0 0x10040000) ∧ rejEvent demo (.write 0x0 0x13000801) ∧
    rejEvent { demo with arg := 10000 } (.write 0x0 0x14000001) ∧ rejEvent demo (.write 0x4 0x00C80282) ∧
    rejEvent demo (.write 0x5 0x00010000) ∧ rejEvent demo (.write 0x6 0x5B) ∧ rejEvent demo (.write 0x8 0) ∧
    rejEvent demo (.write 0x0 0x30040000) ∧ rejEvent demo (.write 0x0 0x36010806) :=
  ⟨.inl ⟨rfl, .inr ⟨_, rfl, .inr ⟨rfl, .inl rfl⟩⟩⟩, .inl ⟨rfl, .inl ⟨_, rfl⟩⟩,
    .inl ⟨rfl, .inr ⟨_, rfl, .inr ⟨rfl, .inr (by show ¬ 4 < 4; decide)⟩⟩⟩,
    .inl ⟨rfl, .inr ⟨_, rfl, .inr ⟨rfl, .inr (.inr rfl)⟩⟩⟩,
    .inl ⟨rfl, .inr ⟨.setInt true, rfl, .inr ⟨rfl, .inr (by
      show ¬ (-((10 : Int) ^ (4 - 1) - 1) ≤ (10000 : Word).toInt ∧ (10000 : Word).toInt ≤ (10 : Int) ^ 4 - 1)
      decide)⟩⟩⟩,
    .inr (.inl ⟨rfl, .inl rfl⟩), .inr (.inr (.inl ⟨rfl, by decide⟩)), .inr (.inr (.inr (.inl ⟨rfl, rfl⟩))),
    .inr (.inr (.inr (.inr (.inr (by decide))))),
    .inl ⟨rfl, .inr ⟨_, rfl, .inr ⟨rfl, .inr (by show ¬ 4 < 4; decide)⟩⟩⟩,
    .inl ⟨rfl, .inr ⟨_, rfl, .inr ⟨rfl, .inr rfl⟩⟩⟩⟩

/-- Events 1 and 8 of R261, before INIT: a query, and CONFIG writes with DLEN above MAXDIGITS and with DWELL 0. -/
theorem witness_rejEventsBeforeInit :
    rejEvent (State.resetOf demoConfig) (.write 0x0 0x39000000) ∧
    rejEvent (State.resetOf demoConfig) (.write 0x4 0x00C80292) ∧
    rejEvent (State.resetOf demoConfig) (.write 0x4 0x00C80082) :=
  ⟨.inl ⟨rfl, .inr ⟨_, rfl, .inl ⟨rfl, by decide, by decide⟩⟩⟩, .inr (.inl ⟨rfl, .inr (.inl (by decide))⟩),
    .inr (.inl ⟨rfl, .inr (.inr (by decide))⟩)⟩

theorem witness_RejIsSetExactlyByTheListedEvents :
    ((thisInput (demoAt passStart [writeCycle 0x0 0x10040000])).rst = false ∧
      ∃ t, step (demoAt passStart [writeCycle 0x0 0x10040000]) = .next t ∧ t.rej = true) ∧
    ((thisInput (demoAt passStart [writeCycle 0x8 0])).rst = false ∧
      ∃ t, step (demoAt passStart [writeCycle 0x8 0]) = .next t ∧ t.rej = true) ∧
    ((thisInput (demoAt passStart [writeCycle 0x3 4])).rst = false ∧
      ∃ t, step { demoAt passStart [writeCycle 0x3 4] with rej := true } = .next t ∧ t.rej = false) :=
  ⟨⟨rfl, _, rfl, rfl⟩, ⟨rfl, _, rfl, rfl⟩, rfl, _, rfl, rfl⟩

/-- Commands, then a register write, a reserved opcode and a locked CONFIG write. -/
theorem witness_RejectedCommandsHaveNoOtherEffect :
    (commandRejects demo (.setByte 4 0) ∧ commandRejects (State.resetOf demoConfig) .clear ∧ commandRejects demo .init ∧
      (∀ d, Instr.setByte 4 0 ≠ .getByte d) ∧ (∀ d k, Instr.setByte 4 0 ≠ .getSeg d k) ∧
      (∀ b k on, Instr.setByte 4 0 ≠ .segSet b k on) ∧ ∀ b k, Instr.setByte 4 0 ≠ .segTest b k) ∧
    (rejEvent demo (.write 0x8 0) ∧ (∀ w, BusOp.write 0x8 0 = .write 0x4 w → demo.init = true) ∧
      ∀ w, BusOp.write 0x8 0 ≠ .write 0x0 w) ∧
    (rejEvent demo (.write 0x4 0x00C80282) ∧ demo.init = true ∧ ∀ w, BusOp.write 0x4 0x00C80282 ≠ .write 0x0 w) ∧
    (rejEvent demo (.write 0x0 0x3A000000) ∧ ∀ i, decode 0x3A000000 ≠ .ok i) :=
  ⟨⟨.inr ⟨rfl, .inr (by show ¬ 4 < 4; decide)⟩, .inl ⟨rfl, by decide, by decide⟩, .inr ⟨rfl, .inl rfl⟩,
      (fun _ h => nomatch h), (fun _ _ h => nomatch h), (fun _ _ _ h => nomatch h), (fun _ _ h => nomatch h)⟩,
    ⟨witness_rejEvents.2.2.2.2.2.2.2.2.1, (fun _ _ => rfl), by simp⟩,
    ⟨witness_rejEvents.2.2.2.2.2.1, rfl, by simp⟩,
    witness_rejEvents.2.1, fun i h => nomatch (show Except.error (DecodeError.reservedOpcode 0x3A) = .ok i from h)⟩

theorem witness_AnswerAndTimeRegistersRead : 0xC ≤ (0xC : BitVec 4).toNat := by decide

theorem witness_MasksMirrorTheFlags : Memory.wf demo ∧ demo.cfg.legal := by decide

theorem witness_OpenRegistersTakeTheirWrites :
    (0xABCD0001 : Word).extractLsb' 0 16 ≠ 0#16 ∧ (0x00010000 : Word).extractLsb' 0 16 = 0#16 ∧
    (0x00000004 : Word).getLsbD 2 = true ∧ (0x0000000B : Word).getLsbD 2 = false := by decide

theorem witness_ConfigurationWritesBeforeInit :
    (State.resetOf demoConfig).init = false ∧
    (1 ≤ ((0x00C80182 : Word).extractLsb' 4 4).toNat ∧
      ((0x00C80182 : Word).extractLsb' 4 4).toNat ≤ (State.resetOf demoConfig).cfg.maxDigits) ∧
    (0x00C80182 : Word).extractLsb' 8 8 ≠ 0#8 ∧
    ¬ (1 ≤ ((0x00C80092 : Word).extractLsb' 4 4).toNat ∧
      ((0x00C80092 : Word).extractLsb' 4 4).toNat ≤ (State.resetOf demoConfig).cfg.maxDigits) ∧
    (0x00C80092 : Word).extractLsb' 8 8 = 0#8 := by decide

theorem witness_LockedAndReadOnlyWritesAreRejected :
    ((0x8 : BitVec 4) = 0x2 ∨ 0x8 ≤ (0x8 : BitVec 4).toNat) ∧ demo.init = true ∧
    ((0x6 : BitVec 4) = 0x4 ∨ (0x6 : BitVec 4) = 0x6) := by decide

theorem witness_GlyphDigitAnswersTheTable :
    fieldOp 0x32000009 = 0x32 ∧ demo.init = true ∧ 9 < 10 ∧ 10 ≤ 10 ∧ (State.resetOf demoConfig).init = false := by decide

theorem witness_GlyphCharAnswersTheTables :
    fieldOp 0x33000061 = 0x33 ∧ demo.init = true ∧ (0x5A : Byte).toNat = 0x41 + (25 : Fin 26).val ∧
    (0x61 : Byte).toNat = 0x61 + (0 : Fin 26).val ∧ (0x39 : Byte).toNat = 0x30 + (9 : Fin 10).val ∧
    (0x2C : Byte) = ([0x21, 0x3F, 0x28, 0x29, 0x5B, 0x5D, 0x2F, 0x5C, 0x2A, 0xB0, 0x22, 0x27, 0x2B, 0x5F, 0x3A, 0x3B, 0x3D,
      0x3E, 0x3C, 0x5E, 0x2C] : List Byte).getD (20 : Fin 21).val 0 ∧
    (0x1F : Byte).toNat < 0x20 ∧ 0x80 ≤ (0x80 : Byte).toNat ∧ (0x80 : Byte) ≠ 0xB0 ∧
    (State.resetOf demoConfig).init = false := by decide

theorem witness_CaseFoldingKeepsTheGlyph :
    0x41 ≤ (0x41 : Byte).toNat ∧ (0x41 : Byte).toNat ≤ 0x5A ∧ 0x41 ≤ (0x5A : Byte).toNat ∧ (0x5A : Byte).toNat ≤ 0x5A := by
  decide

theorem witness_FixedGlyphsAndInversion :
    fieldOp 0x34000000 = 0x34 ∧ fieldOp 0x35000000 = 0x35 ∧ fieldOp 0x3800003F = 0x38 ∧ demo.init = true ∧
    (State.resetOf demoConfig).init = false := by decide

theorem witness_SegSetAndSegTestAnswer :
    fieldOp 0x36010300 = 0x36 ∧ fieldOp 0x37000780 = 0x37 ∧ demo.init = true ∧ (6 < 7 ∨ 6 = 7 ∧ demo.hasDp = true) ∧
    (7 < 7 ∨ 7 = 7 ∧ demo.hasDp = true) ∧ ¬ (8 < 7 ∨ 8 = 7 ∧ demo.hasDp = true) ∧
    ¬ (7 < 7 ∨ 7 = 7 ∧ { demo with hasDp := false }.hasDp = true) ∧ (State.resetOf demoConfig).init = false := by decide

theorem witness_SegmentRoundTrip :
    (6 < 7 ∨ 6 = 7 ∧ { demo with hasDp := false }.hasDp = true) ∧ (7 < 7 ∨ 7 = 7 ∧ demo.hasDp = true) ∧
    ¬ (7 < 7 ∨ 7 = 7 ∧ { demo with hasDp := false }.hasDp = true) ∧ ¬ (8 < 7 ∨ 8 = 7 ∧ demo.hasDp = true) := by decide

theorem witness_InRangeAnswersTheBounds :
    fieldOp 0x39000000 = 0x39 ∧ demo.init = true ∧ (State.resetOf demoConfig).init = false := by decide

theorem witness_SingleDigitWrites :
    fieldOp 0x1002005B = 0x10 ∧ fieldOp 0x11000007 = 0x11 ∧ fieldOp 0x12010048 = 0x12 ∧ Sized demo ∧
    (Instr.setDigit 3 10 = .setDigit 3 10 ∧ (0x00 : Byte) = if 10 ≤ 9 then digitGlyph demo.cfg 10 else 0x00) ∧
    demo.init = true ∧ 3 < demo.len ∧ ¬ 4 < demo.len ∧ (State.resetOf demoConfig).init = false ∧
    Sized (State.resetOf demoConfig) :=
  ⟨by decide, by decide, by decide, demo_sized, by decide, rfl, by decide, by decide, rfl, demoReset_inv.sized⟩

theorem witness_SetSegWritesOneBit :
    fieldOp 0x13030701 = 0x13 ∧ Sized demo ∧ demo.init = true ∧ 3 < demo.len ∧ (7 < 7 ∨ 7 = 7 ∧ demo.hasDp = true) ∧
    ¬ (3 < demo.len ∧ (8 < 7 ∨ 8 = 7 ∧ demo.hasDp = true)) ∧ ¬ (4 < demo.len ∧ (0 < 7 ∨ 0 = 7 ∧ demo.hasDp = true)) ∧
    Sized (State.resetOf demoConfig) ∧ (State.resetOf demoConfig).init = false :=
  ⟨by decide, demo_sized, rfl, by decide, by decide, by decide, by decide, demoReset_inv.sized, rfl⟩

/-- The two bounds of a four-digit display. -/
theorem witness_SetIntShowsTheValue :
    (Sized { demo with arg := 0xFFFFFC19 } ∧ 1 ≤ { demo with arg := 0xFFFFFC19 }.len ∧ demo.init = true ∧
      -((10 : Int) ^ (demo.len - 1) - 1) ≤ (0xFFFFFC19 : Word).toInt ∧ (0xFFFFFC19 : Word).toInt ≤ (10 : Int) ^ demo.len - 1) ∧
    -((10 : Int) ^ (demo.len - 1) - 1) ≤ (9999 : Word).toInt ∧ (9999 : Word).toInt ≤ (10 : Int) ^ demo.len - 1 :=
  ⟨⟨demo_sized, by decide, rfl, by decide, by decide⟩, by decide, by decide⟩

theorem witness_SetIntRejectsOutOfRange :
    fieldOp 0x14000001 = 0x14 ∧ demo.init = true ∧ (State.resetOf demoConfig).init = false ∧
    ¬ (-((10 : Int) ^ (demo.len - 1) - 1) ≤ (10000 : Word).toInt ∧ (10000 : Word).toInt ≤ (10 : Int) ^ demo.len - 1) ∧
    ¬ (-((10 : Int) ^ (demo.len - 1) - 1) ≤ (0xFFFFFC18 : Word).toInt ∧
      (0xFFFFFC18 : Word).toInt ≤ (10 : Int) ^ demo.len - 1) := by decide

theorem witness_RenderedIntegersAreDistinct :
    Sized { demo with arg := 42 } ∧ 1 ≤ { demo with arg := 42 }.len ∧ demo.cfg.digitGlyph = canonicalDigitGlyph ∧
    demo.init = true ∧ demo.rej = false ∧
    ∃ t, exec (.setInt false) { demo with arg := 42 } = .next t ∧ t.rej = false ∧ ∀ a, a < demo.len → fbAt t a = fbAt t a :=
  ⟨demo_sized, by decide, rfl, rfl, rfl, _, rfl, rfl, fun _ _ => rfl⟩

theorem witness_ShiftMovesTheDisplay :
    fieldOp 0x15000001 = 0x15 ∧ Sized demo ∧ demo.init = true ∧ (3 < demo.len ∧ 0 < demo.len ∧ ((3 : Nat) : Int) = (0 : Nat) + 3) ∧
    (((0 : Nat) : Int) - 1 < 0 ∨ (demo.len : Int) ≤ (0 : Nat) - 1) ∧
    (((3 : Nat) : Int) - -1 < 0 ∨ (demo.len : Int) ≤ (3 : Nat) - -1) ∧ 4 ≤ demo.len ∧
    (State.resetOf demoConfig).init = false ∧ Sized (State.resetOf demoConfig) :=
  ⟨by decide, demo_sized, rfl, by decide, by decide, by decide, by decide, rfl, demoReset_inv.sized⟩

theorem witness_ShiftBackRestoresWhatStayed :
    Sized demo ∧ demo.init = true ∧ ∃ t u, exec (.shift 1) demo = .next t ∧ exec (.shift (-1)) t = .next u ∧ 3 < demo.len :=
  ⟨demo_sized, rfl, _, _, rfl, rfl, by decide⟩

theorem witness_GettersAnswer :
    fieldOp 0x30030000 = 0x30 ∧ fieldOp 0x31000600 = 0x31 ∧ demo.init = true ∧ 3 < demo.len ∧ ¬ 4 < demo.len ∧
    (7 < 7 ∨ 7 = 7 ∧ demo.hasDp = true) ∧ ¬ (3 < demo.len ∧ (8 < 7 ∨ 8 = 7 ∧ demo.hasDp = true)) ∧
    (State.resetOf demoConfig).init = false := by decide

theorem witness_ClearBlanksTheDisplay :
    fieldOp 0x02000000 = 0x02 ∧ Sized demo ∧ demo.init = true ∧ 3 < demo.len ∧ demo.len ≤ 4 ∧
    Sized (State.resetOf demoConfig) ∧ (State.resetOf demoConfig).init = false :=
  ⟨by decide, demo_sized, rfl, by decide, by decide, demoReset_inv.sized, rfl⟩

/-- SHIFT on two states that differ in the entries 4 to 7 alone. -/
theorem witness_CommandsStayBelowDlen :
    ((∃ t, exec (.shift 127) demo = .next t) ∧ Sized demo ∧ demo.len ≤ 4) ∧
    Sized { demo with fb := [0x11, 0x22, 0x44, 0x88, 1, 2, 3, 4] } ∧
    (∀ a, a < demo.len → fbAt { demo with fb := [0x11, 0x22, 0x44, 0x88, 1, 2, 3, 4] } a = fbAt demo a) ∧
    ∃ t', exec (.shift 127) { demo with fb := [0x11, 0x22, 0x44, 0x88, 1, 2, 3, 4] } = .next t' := by
  refine ⟨⟨⟨_, rfl⟩, demo_sized, by decide⟩, ⟨⟨rfl, rfl, rfl⟩, by decide⟩, ?_, _, rfl⟩
  intro a h
  have h4 : a < 4 := h
  interval_cases a <;> rfl

theorem witness_DigitFlagWrites :
    fieldOp 0x20010000 = 0x20 ∧ fieldOp 0x21030001 = 0x21 ∧ Sized demo ∧ demo.init = true ∧ 3 < demo.len ∧ ¬ 4 < demo.len ∧
    Sized (State.resetOf demoConfig) ∧ (State.resetOf demoConfig).init = false :=
  ⟨by decide, by decide, demo_sized, rfl, by decide, by decide, demoReset_inv.sized, rfl⟩

theorem witness_GlobalFlagWrites :
    fieldOp 0x22000001 = 0x22 ∧ fieldOp 0x23000000 = 0x23 ∧ Sized demo ∧ demo.init = true ∧ 3 < demo.len ∧ demo.len ≤ 4 ∧
    Sized (State.resetOf demoConfig) ∧ (State.resetOf demoConfig).init = false :=
  ⟨by decide, by decide, demo_sized, rfl, by decide, by decide, demoReset_inv.sized, rfl⟩

theorem witness_BlinkPhaseAlternates :
    ((250 : BitVec 16) ≠ 0 ∧ (249 : Word).toNat + (250 : BitVec 16).toNat < 2 ^ 32) ∧
    (65535 : BitVec 16) ≠ 0 ∧ (0xFFFF0000 : Word).toNat + (65535 : BitVec 16).toNat < 2 ^ 32 := by decide

/-- With digit 1 disabled, the slot from index 1 on is digit 2's; with all disabled there is none. -/
theorem witness_BeginSlotTakesTheFirstEnabledDigit :
    (1 ≤ 2 ∧ 2 < demo.len ∧ enAt { demo with en := [true, false, true, true, true, true, true, true] } 2 = true ∧
      ∀ k, 1 ≤ k → k < 2 → enAt { demo with en := [true, false, true, true, true, true, true, true] } k = false) ∧
    ∀ j, 0 ≤ j → j < { demo with en := [false, false, false, false, true, true, true, true] }.len →
      enAt { demo with en := [false, false, false, false, true, true, true, true] } j = false := by
  refine ⟨⟨by decide, by decide, rfl, ?_⟩, ?_⟩
  · intro k h1 h2
    interval_cases k
    rfl
  · intro j _ h
    have h4 : j < 4 := h
    interval_cases j <;> rfl

theorem witness_SlotKeepsItsSample :
    (demoAt lastSlotTick [writeCycle 0x0 0x1001005B]).seq.state = .slot ∧
    (thisInput (demoAt lastSlotTick [writeCycle 0x0 0x1001005B])).rst = false ∧
    ¬ ((demoAt lastSlotTick [writeCycle 0x0 0x1001005B]).presc = demoConfig.clkPerMs - 1 ∧
      (demoAt lastSlotTick [writeCycle 0x0 0x1001005B]).seq.cnt = 1) ∧
    ∃ t, step (demoAt lastSlotTick [writeCycle 0x0 0x1001005B]) = .next t :=
  ⟨rfl, rfl, by decide, _, rfl⟩

theorem witness_SlotLastsItsDwell :
    (Inv (demoAt passStart [writeCycle 0x0 0x22000000]) ∧ NoReset (demoAt passStart [writeCycle 0x0 0x22000000]) ∧
      (demoAt passStart [writeCycle 0x0 0x22000000]).seq.state ≠ .idle ∧
      3 < cyclesLeft (demoAt passStart [writeCycle 0x0 0x22000000])) ∧
    Inv (demoAt lastGapTick []) ∧ NoReset (demoAt lastGapTick []) ∧ (demoAt lastGapTick []).seq.state ≠ .idle ∧
      1 < cyclesLeft (demoAt lastGapTick []) := by
  refine ⟨⟨passStart_inv _, ?_, by decide, by decide⟩, lastGapTick_inv _, ?_, by decide, by decide⟩
  · intro c hc
    rcases List.mem_singleton.1 hc with rfl
    rfl
  · intro c hc
    cases hc

/-- A pass with four enabled digits, and one with none. -/
theorem witness_PassPeriod :
    (Inv (demoAt passStart []) ∧ (demoAt passStart []).inputs = [] ∧ (demoAt passStart []).init = true ∧
      (demoAt passStart []).cont = true ∧ AtPassStart (demoAt passStart []) ∧ 1 < passCycles (demoAt passStart []) ∧
      ∃ t, run 1 (demoAt passStart []) = .next t) ∧
    AtPassStart
      { demoAt { lastGapTick with cnt := 2 } [] with en := [false, false, false, false, true, true, true, true] } :=
  ⟨⟨passStart_inv [], rfl, rfl, rfl, ⟨rfl, rfl, rfl, rfl⟩, by decide, _, rfl⟩, rfl, rfl, rfl⟩

theorem witness_MillisecondEveryClkPerMsCycles : Inv (demoAt lastSlotTick []) ∧ NoReset (demoAt lastSlotTick []) :=
  ⟨lastSlotTick_inv [], by intro c hc; cases hc⟩

theorem witness_AtMostOneDigitIsActive :
    digAct (demoAt lastSlotTick []) 1 = true ∧ digAct (demoAt lastSlotTick []) 0 = false := by decide

theorem witness_OutputsFollowPolarity : Inv (demoAt lastSlotTick []) ∧ 7 < 8 ∧ (demoAt lastSlotTick []).len ≤ 4 :=
  ⟨lastSlotTick_inv [], by decide, by decide⟩

theorem witness_PolarityActsAtTheOutputsOnly : ∃ t, exec (.setByte 2 0x5B) demo = .next t := ⟨_, rfl⟩

theorem witness_OutputsAfterReset :
    (demoAt lastSlotTick [{ rst := true, op := .idle }]).inputs = { rst := true, op := .idle } :: [] ∧
    ∃ t, step (demoAt lastSlotTick [{ rst := true, op := .idle }]) = .next t := ⟨rfl, _, rfl⟩

theorem witness_PinsAreReleasedUntilInit :
    (outEn { State.resetOf demoConfig with inputs := [writeCycle 0x4 0] } = false ∧
      (∃ t, step { State.resetOf demoConfig with inputs := [writeCycle 0x4 0] } = .next t) ∧
      ∀ w rest, { State.resetOf demoConfig with inputs := [writeCycle 0x4 0] }.inputs = writeCycle 0x0 w :: rest →
        fieldOp w ≠ 0x01) ∧
    ({ State.resetOf demoConfig with inputs := [writeCycle 0x0 0x01000000] }.inputs = writeCycle 0x0 0x01000000 :: [] ∧
      fieldOp 0x01000000 = 0x01) ∧
    outEn (demoAt passStart [writeCycle 0x4 0]) = true ∧ (thisInput (demoAt passStart [writeCycle 0x4 0])).rst = false ∧
      ∃ t, step (demoAt passStart [writeCycle 0x4 0]) = .next t := by
  refine ⟨⟨rfl, ⟨_, rfl⟩, ?_⟩, ⟨rfl, by decide⟩, rfl, rfl, _, rfl⟩
  intro w rest h
  have h' : [writeCycle 0x4 0] = writeCycle 0x0 w :: rest := h
  simp [writeCycle] at h'

end Sys2Proof.Tests
end

section
/-!
PROOFS. The scope of the model (spec/00_scope.md R5, spec/20_memory.md R84): the model's own fields over a step.
-/

namespace Sys2Proof.Machine

/-- Settles O21, on the two kinds of step: a reset cycle starts again with the same parameters, and in any other cycle the
bus operation, whose writes the clock commits, stays in a frame that holds them. -/
theorem parametersStayAndInputsAdvance : Obligations.ParametersStayAndInputsAdvance := by
  intro s t h
  rcases step_cases h with ⟨_, rfl⟩ | ⟨_, e, _, ⟨hcfg, _⟩, rfl⟩
  · exact ⟨rfl, rfl⟩
  · exact ⟨by rw [commit_cfg, hcfg, setPend_cfg], commit_inputs ..⟩

end Sys2Proof.Machine
end

section
/-!
PROOFS. What a command does in each phase of the lifecycle (spec/44_lifecycle.md R240 to R244), and which array entries it
leaves: none at DLEN or above is written (spec/10_state.md R20).
-/

namespace Sys2Proof.Machine

/-! ## The two phases -/

/-- Every command other than NOP and INIT is its effect behind the lifecycle gate (R241). -/
theorem exec_eq_gated {i : Instr} (hn : i ≠ .nop) (hi : i ≠ .init) (s : State) : exec i s = gated (effectOf i) s := by
  cases i
  case nop => exact absurd rfl hn
  case init => exact absurd rfl hi
  all_goals rfl

/-- What a command makes of the state, in either phase: before INIT a command other than NOP and INIT is rejected (R243). -/
theorem exec_eq (i : Instr) (s : State) :
    exec i s = .next (if s.init then effectOf i s else if i = .nop then s else if i = .init then s.setInit true
      else reject s) := by
  by_cases hn : i = .nop
  · simp [hn, exec, execNop, effectOf]
  by_cases hi : i = .init
  · simp [hi, exec, execInit, effectOf]
  rw [exec_eq_gated hn hi, gated, if_neg hn, if_neg hi]

/-- What a command can answer, case by case. -/
theorem exec_cases {i : Instr} {s t : State} (h : exec i s = .next t) :
    (s.init = true ∧ t = effectOf i s) ∨
      (s.init = false ∧
        ((i = .nop ∧ t = s) ∨ (i = .init ∧ t = s.setInit true) ∨ (i ≠ .nop ∧ i ≠ .init ∧ t = reject s))) := by
  rw [exec_eq] at h
  injection h with h
  subst h
  cases hi : s.init
  · refine .inr ⟨rfl, ?_⟩
    by_cases hn : i = .nop
    · exact .inl ⟨hn, if_pos hn⟩
    by_cases hi' : i = .init
    · exact .inr (.inl ⟨hi', (if_neg hn).trans (if_pos hi')⟩)
    · exact .inr (.inr ⟨hn, hi', (if_neg hn).trans (if_neg hi')⟩)
  · exact .inl ⟨rfl, rfl⟩

@[simp] theorem reject_init (s : State) : (reject s).init = s.init := rfl
@[simp] theorem reject_rej (s : State) : (reject s).rej = true := rfl
@[simp] theorem answer_init (valid : Bool) (v : Word) (s : State) : (answer valid v s).init = s.init := by
  rw [answer_eq]
@[simp] theorem writeBuffer_init (f : Nat → Byte) (s : State) : (writeBuffer f s).init = s.init := rfl
@[simp] theorem writeDigit_init (d : Nat) (b : Byte) (s : State) : (writeDigit d b s).init = s.init := by
  rcases writeDigit_cases s d b with ⟨_, e⟩ | ⟨_, e⟩ <;> rw [e] <;> simp

/-- After INIT a command leaves the phase as it is (R242). -/
theorem effectOf_init (i : Instr) (s : State) : (effectOf i s).init = s.init := by
  cases i <;> simp only [effectOf]
  case setSeg | setInt | enDigit | blinkDigit => split <;> simp
  all_goals simp

/-- No command returns to the configuration phase. -/
theorem exec_keeps_init {i : Instr} {s t : State} (h : exec i s = .next t) (hi : s.init = true) : t.init = true := by
  rcases exec_cases h with ⟨_, rfl⟩ | ⟨hi', _⟩
  · rw [effectOf_init, hi]
  · rw [hi] at hi'; cases hi'

/-! ## Entries at DLEN and above -/

/-- The arrays keep their lengths, and their entries at DLEN and above. -/
def KeepsBeyond (s t : State) : Prop :=
  (t.fb.length = s.fb.length ∧ t.en.length = s.en.length ∧ t.bl.length = s.bl.length) ∧
    ∀ a, s.len ≤ a → fbAt t a = fbAt s a ∧ enAt t a = enAt s a ∧ blAt t a = blAt s a

/-- What writes none of the arrays keeps all of their entries. -/
theorem keepsBeyond_of_arrays {s t : State} (hfb : t.fb = s.fb) (hen : t.en = s.en) (hbl : t.bl = s.bl) :
    KeepsBeyond s t := by
  simp [KeepsBeyond, fbAt, enAt, blAt, hfb, hen, hbl]

section

variable (s : State)

theorem keepsBeyond_reject : KeepsBeyond s (reject s) := keepsBeyond_of_arrays rfl rfl rfl

theorem keepsBeyond_answer (valid : Bool) (v : Word) : KeepsBeyond s (answer valid v s) := by
  rw [answer_eq]
  exact keepsBeyond_of_arrays rfl rfl rfl

theorem keepsBeyond_writeDigit (d : Nat) (b : Byte) : KeepsBeyond s (writeDigit d b s) := by
  rcases writeDigit_cases s d b with ⟨hd, e⟩ | ⟨_, e⟩ <;> rw [e]
  · refine ⟨by simp, fun a ha => ⟨?_, rfl, rfl⟩⟩
    rw [fbAt_set, if_neg (by omega)]
  · exact keepsBeyond_reject s

theorem keepsBeyond_writeBuffer (f : Nat → Byte) : KeepsBeyond s (writeBuffer f s) := by
  refine ⟨by simp [writeBuffer], fun a ha => ⟨?_, rfl, rfl⟩⟩
  rw [fbAt_writeBuffer, if_neg (show ¬ a < s.len by omega)]
  by_cases h : a < s.fb.length <;> simp [fbAt, h]

theorem keepsBeyond_setEn_set {d : Nat} (hd : d < s.len) (on : Bool) : KeepsBeyond s (s.setEn (s.en.set d on)) := by
  refine ⟨by simp, fun a ha => ⟨rfl, ?_, rfl⟩⟩
  rw [enAt_set, if_neg (by omega)]

theorem keepsBeyond_setBl_set {d : Nat} (hd : d < s.len) (on : Bool) : KeepsBeyond s (s.setBl (s.bl.set d on)) := by
  refine ⟨by simp, fun a ha => ⟨rfl, rfl, ?_⟩⟩
  rw [blAt_set, if_neg (by omega)]

theorem keepsBeyond_setEn_writeFirst (g : Nat → Bool) : KeepsBeyond s (s.setEn (writeFirst s.len g s.en)) := by
  refine ⟨by simp, fun a ha => ⟨rfl, ?_, rfl⟩⟩
  rw [enAt_writeFirst, if_neg (show ¬ a < s.len by omega)]
  by_cases h : a < s.en.length <;> simp [enAt, h]

theorem keepsBeyond_setBl_writeFirst (g : Nat → Bool) : KeepsBeyond s (s.setBl (writeFirst s.len g s.bl)) := by
  refine ⟨by simp, fun a ha => ⟨rfl, rfl, ?_⟩⟩
  rw [blAt_writeFirst, if_neg (show ¬ a < s.len by omega)]
  by_cases h : a < s.bl.length <;> simp [blAt, h]

end

/-- No command's effect writes an entry at DLEN or above (R20). -/
theorem effectOf_keepsBeyond (i : Instr) (s : State) : KeepsBeyond s (effectOf i s) := by
  cases i <;> simp only [effectOf]
  case nop | init | refresh => exact keepsBeyond_of_arrays rfl rfl rfl
  case setByte | setDigit | setChar => exact keepsBeyond_writeDigit s _ _
  case setSeg =>
    split
    · exact keepsBeyond_writeDigit s _ _
    · exact keepsBeyond_reject s
  case setInt =>
    split
    · exact keepsBeyond_writeBuffer s _
    · exact keepsBeyond_reject s
  case clear | shift => exact keepsBeyond_writeBuffer s _
  case enDigit =>
    split
    · next hd => exact keepsBeyond_setEn_set s ((digitValid_iff s _).1 hd) _
    · exact keepsBeyond_reject s
  case blinkDigit =>
    split
    · next hd => exact keepsBeyond_setBl_set s ((digitValid_iff s _).1 hd) _
    · exact keepsBeyond_reject s
  case enAll => exact keepsBeyond_setEn_writeFirst s _
  case blinkAll => exact keepsBeyond_setBl_writeFirst s _
  all_goals exact keepsBeyond_answer s _ _

/-- No command writes an entry at DLEN or above (R20). -/
theorem exec_keepsBeyond {i : Instr} {s t : State} (h : exec i s = .next t) : KeepsBeyond s t := by
  rcases exec_cases h with ⟨_, rfl⟩ | ⟨_, ⟨_, rfl⟩ | ⟨_, rfl⟩ | ⟨_, _, rfl⟩⟩
  · exact effectOf_keepsBeyond i s
  all_goals exact keepsBeyond_of_arrays rfl rfl rfl

end Sys2Proof.Machine
end

section
/-!
PROOFS. What the bus operation of a cycle can write (spec/10_state.md R28 to R42): a command's writes, or those of one
register, which keep CONFIG, BLINK_IV and UNK_GLYPH within their rules.
-/

namespace Sys2Proof.Machine

/-- What any write but a command's can do: it stays in the registers that the host may write, those that INIT locks among
them (R33, R35) only before INIT, and keeps DLEN, DWELL and IV legal (R32, R34). -/
structure RegisterWrite (s t : State) : Prop where
  /-- Only these registers and REJ are written. -/
  frame : t = { s with arg := t.arg, rej := t.rej, pol := t.pol, hasDp := t.hasDp, dlen := t.dlen, dwell := t.dwell,
                       bright := t.bright, iv := t.iv, unkGlyph := t.unkGlyph, cont := t.cont }
  /-- After INIT the configuration stays. -/
  locked : s.init = true → t = { s with arg := t.arg, rej := t.rej, iv := t.iv, cont := t.cont }
  /-- A new DLEN is legal. -/
  dlen : t.dlen = s.dlen ∨ dlenLegal s t.dlen = true
  /-- A new DWELL is legal. -/
  dwell : t.dwell = s.dwell ∨ t.dwell ≠ 0
  /-- A new interval is legal. -/
  iv : t.iv = s.iv ∨ t.iv ≠ 0

section

variable (w : Word) (s : State)

theorem registerWrite_refl : RegisterWrite s s := ⟨rfl, fun _ => rfl, .inl rfl, .inl rfl, .inl rfl⟩

theorem registerWrite_setRej (v : Bool) : RegisterWrite s (s.setRej v) :=
  ⟨rfl, fun _ => rfl, .inl rfl, .inl rfl, .inl rfl⟩

theorem registerWrite_arg : RegisterWrite s (writeArg w s) := ⟨rfl, fun _ => rfl, .inl rfl, .inl rfl, .inl rfl⟩

theorem registerWrite_ctrl : RegisterWrite s (writeCtrl w s) := ⟨rfl, fun _ => rfl, .inl rfl, .inl rfl, .inl rfl⟩

theorem registerWrite_status : RegisterWrite s (writeStatus w s) := by
  unfold writeStatus
  split
  · exact registerWrite_setRej s false
  · exact registerWrite_refl s

theorem registerWrite_blinkIv : RegisterWrite s (writeBlinkIv w s) := by
  unfold writeBlinkIv
  dsimp only
  split
  · next hv => exact ⟨rfl, fun _ => rfl, .inl rfl, .inl rfl, .inr hv⟩
  · exact registerWrite_setRej s true

theorem registerWrite_unkGlyph : RegisterWrite s (writeUnkGlyph w s) := by
  unfold writeUnkGlyph
  split
  · exact registerWrite_setRej s true
  · next hi => exact ⟨rfl, (absurd · hi), .inl rfl, .inl rfl, .inl rfl⟩

/-- R31. -/
theorem dlenLegal_iff (v : BitVec 4) : dlenLegal s v = true ↔ 1 ≤ v.toNat ∧ v.toNat ≤ s.cfg.maxDigits := by
  simp only [dlenLegal, Bool.and_eq_true, decide_eq_true_eq]

/-- R32. -/
theorem configLegal_iff :
    configLegal w s = true ↔
      (1 ≤ (w.extractLsb' 4 4).toNat ∧ (w.extractLsb' 4 4).toNat ≤ s.cfg.maxDigits) ∧ w.extractLsb' 8 8 ≠ 0#8 := by
  rw [configLegal, Bool.and_eq_true, dlenLegal_iff, bne_iff_ne]

/-- REJ apart, a CONFIG write before INIT writes its fields (R32). -/
theorem writeConfig_before_init (h : s.init = false) :
    writeConfig w s = (writeConfigFields w s).setRej (s.rej || !configLegal w s) := by
  simp only [writeConfig, h, Bool.false_eq_true, if_false, rejectUnless]
  cases configLegal w s <;> simp [reject, State.setRej, writeConfigFields]

theorem registerWrite_config : RegisterWrite s (writeConfig w s) := by
  cases hi : s.init
  · rw [writeConfig_before_init w s hi]
    refine ⟨rfl, fun h => absurd h (by simp [hi]), ?_, ?_, .inl rfl⟩
    · show (if _ then _ else _) = _ ∨ dlenLegal s (if _ then _ else _) = true
      split
      · next hl => exact .inr hl
      · exact .inl rfl
    · show (if _ then _ else _) = _ ∨ (if _ then _ else _) ≠ _
      split
      · next hw => exact .inr hw
      · exact .inl rfl
  · rw [writeConfig, if_pos hi]
    exact registerWrite_setRej s true

end

/-- What the bus operation of a cycle can do: run a command, or write at most the registers (R72, R73, R90). -/
theorem busEffect_cases {op : BusOp} {s t : State} (h : busEffect op s = .next t) :
    (∃ w i, op = .write addrCmd w ∧ decode w = .ok i ∧ exec i s = .next t) ∨ RegisterWrite s t := by
  cases op with
  | idle => injection h with h; exact .inr (h ▸ registerWrite_refl s)
  | read a => injection h with h; exact .inr (h ▸ registerWrite_refl s)
  | write a w =>
    change writeReg a w s = .next t at h
    rcases writeReg_cases a w s with ⟨rfl, e⟩ | ⟨_, e⟩ | ⟨_, e⟩ | ⟨_, e⟩ | ⟨_, e⟩ | ⟨_, e⟩ | ⟨_, e⟩ | ⟨_, e⟩ <;>
      rw [e] at h
    · rcases execWord_cases w s with ⟨i, u, hd, hx, e, _⟩ | ⟨_, _, e⟩ <;> rw [e] at h <;> injection h with h <;> subst h
      · exact .inl ⟨w, i, rfl, hd, hx⟩
      · exact .inr (registerWrite_setRej s true)
    all_goals
      injection h with h
      subst h
      refine .inr ?_
    · exact registerWrite_arg w s
    · exact registerWrite_status w s
    · exact registerWrite_config w s
    · exact registerWrite_blinkIv w s
    · exact registerWrite_unkGlyph w s
    · exact registerWrite_ctrl w s
    · exact registerWrite_setRej s true

/-- A command writes no configuration register, no interval and no ARG or CTRL. -/
theorem exec_commandFrame {i : Instr} {s t : State} (h : exec i s = .next t) : CommandFrame s t := by
  obtain ⟨u, hu, hf⟩ := exec_frame i s
  rw [h] at hu
  injection hu with hu
  exact hu ▸ hf

/-- No command changes the display length. -/
theorem exec_len {i : Instr} {s t : State} (h : exec i s = .next t) : t.len = s.len := by
  have hf := exec_commandFrame h
  unfold CommandFrame at hf
  rw [hf]
  rfl

/-- A bus operation keeps DLEN, DWELL and IV legal (R32, R34). -/
theorem busEffect_legal {op : BusOp} {s t : State} (h : busEffect op s = .next t) :
    (t.dlen = s.dlen ∨ dlenLegal s t.dlen = true) ∧ (t.dwell = s.dwell ∨ t.dwell ≠ 0) ∧ (t.iv = s.iv ∨ t.iv ≠ 0) := by
  rcases busEffect_cases h with ⟨_, _, _, _, hx⟩ | ⟨_, _, hdlen, hdwell, hiv⟩
  · have hf := exec_commandFrame hx
    unfold CommandFrame at hf
    exact ⟨.inl (by rw [hf]), .inl (by rw [hf]), .inl (by rw [hf])⟩
  · exact ⟨hdlen, hdwell, hiv⟩

/-- In particular the display length stays within 1 to MAXDIGITS (R31). -/
theorem busEffect_len_legal {op : BusOp} {s t : State} (h : busEffect op s = .next t)
    (hs : 1 ≤ s.len ∧ s.len ≤ s.cfg.maxDigits) : 1 ≤ t.len ∧ t.len ≤ s.cfg.maxDigits := by
  rcases (busEffect_legal h).1 with hdlen | hdlen
  · rw [State.len, hdlen]
    exact hs
  · exact (dlenLegal_iff s _).1 hdlen

/-- A bus operation keeps the arrays' lengths, and their entries at DLEN and above (R20). -/
theorem busEffect_keepsBeyond {op : BusOp} {s t : State} (h : busEffect op s = .next t) : KeepsBeyond s t := by
  rcases busEffect_cases h with ⟨_, _, _, _, hx⟩ | hw
  · exact exec_keepsBeyond hx
  · exact keepsBeyond_of_arrays (by rw [hw.frame]) (by rw [hw.frame]) (by rw [hw.frame])

/-- After INIT a bus operation keeps the phase, CONFIG and UNK_GLYPH (R33, R35). -/
theorem busEffect_after_init {op : BusOp} {s t : State} (h : busEffect op s = .next t) (hi : s.init = true) :
    t.init = true ∧ t.pol = s.pol ∧ t.hasDp = s.hasDp ∧ t.dlen = s.dlen ∧ t.dwell = s.dwell ∧ t.bright = s.bright ∧
      t.unkGlyph = s.unkGlyph := by
  rcases busEffect_cases h with ⟨_, _, _, _, hx⟩ | hw
  · refine ⟨exec_keeps_init hx hi, ?_⟩
    have hf := exec_commandFrame hx
    unfold CommandFrame at hf
    rw [hf]
    exact ⟨rfl, rfl, rfl, rfl, rfl, rfl⟩
  · rw [hw.locked hi]
    exact ⟨hi, rfl, rfl, rfl, rfl, rfl, rfl⟩

/-- Before INIT a bus operation leaves the arrays, RESULT and PEND (R243). -/
theorem busEffect_before_init {op : BusOp} {s t : State} (h : busEffect op s = .next t) (hi : s.init = false) :
    t.fb = s.fb ∧ t.en = s.en ∧ t.bl = s.bl ∧ t.result = s.result ∧ t.pend = s.pend := by
  rcases busEffect_cases h with ⟨_, _, _, _, hx⟩ | hw
  · rcases exec_cases hx with ⟨hi', _⟩ | ⟨_, ⟨_, rfl⟩ | ⟨_, rfl⟩ | ⟨_, _, rfl⟩⟩
    · rw [hi] at hi'; cases hi'
    all_goals exact ⟨rfl, rfl, rfl, rfl, rfl⟩
  · rw [hw.frame]
    exact ⟨rfl, rfl, rfl, rfl, rfl⟩

end Sys2Proof.Machine
end

section
/-!
PROOFS. The invariant (spec/43_scan_sequencer.md R211, spec/10_state.md R20, R31, R34, R43, spec/44_lifecycle.md R242,
R243): it holds after every reset, and every clock cycle keeps it.
-/

namespace Sys2Proof.Machine

/-! ## After a reset -/

/-- MAXDIGITS fits DLEN's four bits. -/
theorem resetOf_len {c : Config} (h : c.legal) : (State.resetOf c).len = c.maxDigits := by
  obtain ⟨_, hmax, _⟩ := h
  simp only [State.len, State.resetOf, BitVec.toNat_ofNat]
  omega

/-- The reset state of a legal build meets the invariant, whatever the host does later. -/
theorem inv_resetOf {c : Config} (h : c.legal) (ins : List HostCycle) : Inv { State.resetOf c with inputs := ins } := by
  have hlen : State.len { State.resetOf c with inputs := ins } = c.maxDigits := resetOf_len h
  obtain ⟨hpos, hmax, hclk⟩ := h
  exact {
    legal := ⟨hpos, hmax, hclk⟩
    sized := ⟨resetOf_wf c, le_of_eq hlen⟩
    lenPos := hlen ▸ hpos
    dwellPos := by show 1 ≤ (2 : Byte).toNat; decide
    ivPos := by show 1 ≤ (250 : BitVec 16).toNat; decide
    prescBound := hclk
    untouched := fun _ => ⟨rfl, rfl, rfl, rfl, rfl, rfl⟩
    beyond := fun i h1 h2 => absurd h2 (by rw [hlen] at h1; exact Nat.not_lt.2 h1)
    seqFits := ⟨rfl, rfl, rfl⟩ }

/-! ## The clock's part of a cycle -/

/-- SeqFits reads the sequencer registers, DLEN and DWELL. -/
theorem seqFits_congr {s t : State} (hseq : t.seq = s.seq) (hlen : t.dlen = s.dlen) (hdwell : t.dwell = s.dwell) :
    SeqFits t ↔ SeqFits s := by
  simp only [SeqFits, State.len, hseq, hlen, hdwell]

/-- What begins fits: the slot of a digit below DLEN, or the gap, with the whole dwell left (R203). -/
theorem seqFits_beginSlot {s : State} (h : 1 ≤ s.dwell.toNat) (i : Nat) :
    SeqFits { s with seq := beginSlot s i } := by
  cases hn : nextEnabled s i with
  | none =>
    rw [beginSlot_gap hn]
    exact ⟨rfl, h, le_refl _, rfl⟩
  | some j =>
    obtain ⟨_, hj, _⟩ := nextEnabled_eq_some.1 hn
    rw [beginSlot_slot hn]
    refine ⟨?_, h, le_refl _⟩
    have hl : s.len < 16 := s.dlen.isLt
    show (BitVec.ofNat 4 j).toNat < s.len
    rw [BitVec.toNat_ofNat]
    omega

/-- A count that is neither 0 nor, in a tick, 1 stays positive and does not grow (R210). -/
theorem countDown_cnt {s : State} (hc : 1 ≤ s.seq.cnt.toNat) (hd : dwellOver s = false) :
    1 ≤ (countDown s).cnt.toNat ∧ (countDown s).cnt.toNat ≤ s.seq.cnt.toNat := by
  unfold countDown
  split
  · next ht =>
    have hne : s.seq.cnt ≠ 1 := by simpa [dwellOver, ht] using hd
    have hne' : s.seq.cnt.toNat ≠ 1 := fun h => hne (BitVec.eq_of_toNat_eq h)
    show 1 ≤ (s.seq.cnt - 1).toNat ∧ (s.seq.cnt - 1).toNat ≤ s.seq.cnt.toNat
    bv_omega
  · exact ⟨hc, le_refl _⟩

/-- Counting down leaves the sequencer's other registers. -/
theorem countDown_eq (s : State) : countDown s = { s.seq with cnt := (countDown s).cnt } := by
  unfold countDown
  split <;> rfl

/-- A slot or gap that goes on still fits (R210, R211). -/
theorem seqFits_countDown {s : State} (h : SeqFits s) (hne : s.seq.state ≠ .idle) (hd : dwellOver s = false) :
    SeqFits { s with seq := countDown s } := by
  rw [countDown_eq s]
  cases hs : s.seq.state with
  | idle => exact absurd hs hne
  | slot =>
    simp only [SeqFits, hs] at h ⊢
    obtain ⟨hidx, hpos, hle⟩ := h
    obtain ⟨hpos', hle'⟩ := countDown_cnt hpos hd
    exact ⟨hidx, hpos', hle'.trans hle⟩
  | gap =>
    simp only [SeqFits, hs] at h ⊢
    obtain ⟨hidx, hpos, hle, hlit⟩ := h
    obtain ⟨hpos', hle'⟩ := countDown_cnt hpos hd
    exact ⟨hidx, hpos', hle'.trans hle, hlit⟩

/-- The sequencer's step keeps its registers fitting (R211). -/
theorem seqFits_seqStep {s : State} (h : SeqFits s) (hdwell : 1 ≤ s.dwell.toNat) : SeqFits { s with seq := seqStep s } := by
  rcases seqStep_cases s with ⟨_, _, e⟩ | ⟨_, _, e⟩ | ⟨hne, hd, _, e⟩ | ⟨_, _, _, e⟩ | ⟨_, _, _, e⟩ | ⟨_, _, _, e⟩ <;> rw [e]
  · exact seqFits_beginSlot hdwell 0
  · exact h
  · exact seqFits_countDown h hne hd
  · exact seqFits_beginSlot hdwell _
  · exact seqFits_beginSlot hdwell 0
  · exact ⟨rfl, rfl, rfl⟩

/-- In the configuration phase an idle sequencer stays idle and takes no request (R210, R242). -/
theorem seqStep_before_init {s : State} (hi : s.init = false) (hseq : s.seq = SeqRegs.reset) :
    passStarts s = false ∧ seqStep s = SeqRegs.reset := by
  have hp : passStarts s = false := by simp [passStarts, hseq, SeqRegs.reset, hi]
  refine ⟨hp, ?_⟩
  rw [seqStep, hp, hseq]
  rfl

/-- The prescaler stays below CLK_PER_MS (R43, R200). -/
theorem nextPresc_lt {s : State} (h : s.presc < s.cfg.clkPerMs) : nextPresc s < s.cfg.clkPerMs := by
  unfold nextPresc
  split
  · omega
  · next ht =>
    have hne : s.presc ≠ s.cfg.clkPerMs - 1 := by simpa [tick] using ht
    omega

/-! ## The whole cycle -/

/-- Before INIT a cycle touches nothing that is at its reset value, and an INIT in it neither (R242, R243). -/
theorem untouched_commit {s e : State} {op : BusOp} (h : busEffect op (s.setPend false) = .next e) (hcfg : e.cfg = s.cfg)
    (hi : s.init = false) (hu : Untouched s) : Untouched (commit s op e) := by
  obtain ⟨hfb, hen, hbl, hresult, hpend, hseq⟩ := hu
  obtain ⟨hfb', hen', hbl', hresult', hpend'⟩ := busEffect_before_init h hi
  obtain ⟨hp, hstep⟩ := seqStep_before_init hi hseq
  refine ⟨?_, ?_, ?_, hresult'.trans hresult, ?_, hstep⟩
  · rw [commit_fb, commit_cfg, hfb', hcfg]; exact hfb
  · rw [commit_en, commit_cfg, hen', hcfg]; exact hen
  · rw [commit_bl, commit_cfg, hbl', hcfg]; exact hbl
  · rw [commit_pend, mergePend_eq, hpend', hpend]; simp

/-- Untouched arrays hold their reset values at every index. -/
theorem untouched_entry {s : State} (hu : Untouched s) {i : Nat} (hi : i < s.cfg.maxDigits) :
    fbAt s i = blank ∧ enAt s i = true ∧ blAt s i = false := by
  obtain ⟨hfb, hen, hbl, _⟩ := hu
  simp [fbAt, enAt, blAt, hfb, hen, hbl, hi]

/-- A nonzero word is at least 1. -/
theorem one_le_toNat {n : Nat} {v : BitVec n} (h : v ≠ 0) : 1 ≤ v.toNat :=
  Nat.one_le_iff_ne_zero.2 fun h0 => h (BitVec.eq_of_toNat_eq (by simpa using h0))

section

variable {s e : State} {op : BusOp} (hs : Inv s) (h : busEffect op (s.setPend false) = .next e) (hcfg : e.cfg = s.cfg)
include hs h hcfg

/-- What is untouched before INIT is so after the cycle too, whichever phase that is. -/
theorem untouched_commit_of_inv (hi : s.init = false) : Untouched (commit s op e) :=
  untouched_commit h hcfg hi (hs.untouched hi)

/-- The entries from DLEN on keep their reset values: before INIT, while DLEN may change, every entry has its reset value,
and after INIT DLEN is fixed (R20, R33). -/
theorem beyond_commit (i : Nat) (h1 : (commit s op e).len ≤ i) (h2 : i < (commit s op e).cfg.maxDigits) :
    fbAt (commit s op e) i = blank ∧ enAt (commit s op e) i = true ∧ blAt (commit s op e) i = false := by
  cases hi : s.init
  · exact untouched_entry (untouched_commit_of_inv hs h hcfg hi) h2
  · obtain ⟨_, _, _, hdlen, _⟩ := busEffect_after_init h hi
    have hlen : s.len ≤ i := by rwa [commit_len, State.len, hdlen] at h1
    obtain ⟨_, hbeyond⟩ := busEffect_keepsBeyond h
    obtain ⟨efb, een, ebl⟩ := hbeyond i hlen
    obtain ⟨bfb, ben, bbl⟩ := hs.beyond i hlen (by rwa [commit_cfg, hcfg] at h2)
    exact ⟨efb.trans bfb, een.trans ben, ebl.trans bbl⟩

/-- The sequencer registers fit the DLEN and DWELL after the cycle: before INIT, while these may change, the sequencer is
idle (R210, R211). -/
theorem seqFits_commit : SeqFits (commit s op e) := by
  cases hi : s.init
  · obtain ⟨_, _, _, _, _, hseq⟩ := untouched_commit_of_inv hs h hcfg hi
    simp only [SeqFits, hseq]
    exact ⟨rfl, rfl, rfl⟩
  · obtain ⟨_, _, _, hdlen, hdwell, _⟩ := busEffect_after_init h hi
    have hfits : SeqFits { s with seq := seqStep s } := seqFits_seqStep hs.seqFits hs.dwellPos
    exact (seqFits_congr (s := { s with seq := seqStep s }) (t := commit s op e) rfl hdlen hdwell).2 hfits

/-- A cycle without reset keeps the invariant. -/
theorem inv_commit : Inv (commit s op e) := by
  obtain ⟨⟨hfb, hen, hbl⟩, _⟩ := busEffect_keepsBeyond h
  obtain ⟨_, hdwell, hiv⟩ := busEffect_legal h
  obtain ⟨⟨wfb, wen, wbl⟩, hlen⟩ := hs.sized
  obtain ⟨hpos', hlen'⟩ := busEffect_len_legal h ⟨hs.lenPos, hlen⟩
  exact {
    legal := hcfg ▸ hs.legal
    sized := by
      refine ⟨⟨?_, ?_, ?_⟩, ?_⟩ <;> rw [commit_cfg, hcfg]
      exacts [hfb.trans wfb, hen.trans wen, hbl.trans wbl, hlen']
    lenPos := hpos'
    dwellPos := hdwell.elim (fun hd => hd ▸ hs.dwellPos) one_le_toNat
    ivPos := hiv.elim (fun hv => hv ▸ hs.ivPos) one_le_toNat
    prescBound := by rw [commit_presc, commit_cfg, hcfg]; exact nextPresc_lt hs.prescBound
    untouched := fun hi => by
      cases hi' : s.init
      · exact untouched_commit_of_inv hs h hcfg hi'
      · rw [commit_init, (busEffect_after_init h hi').1] at hi; cases hi
    beyond := beyond_commit hs h hcfg
    seqFits := seqFits_commit hs h hcfg }

end

/-- Settles O9: a reset cycle gives the reset state of the same legal build, and any other cycle commits the bus operation's
writes, of which `busEffect_cases` says all, with the clock's. -/
theorem stepKeepsInv : Obligations.StepKeepsInv := by
  intro s t hs h
  rcases step_cases h with ⟨_, rfl⟩ | ⟨_, e, he, ⟨hcfg, _⟩, rfl⟩
  · exact inv_resetOf hs.legal s.inputs.tail
  · exact inv_commit hs he hcfg

/-- Settles O8: the build's parameters are in their legal ranges, CLK_PER_MS being a successor. -/
theorem resetStateMeetsInv : Obligations.ResetStateMeetsInv :=
  inv_resetOf (c := buildConfig) ⟨by decide, by decide, Nat.succ_pos _⟩ []

end Sys2Proof.Machine
end

section
/-!
PROOFS. The registers (spec/10_state.md R27 to R42): what each reads as, field by field, and what a write to each does.
-/

namespace Sys2Proof.Machine

/-! ## What each address reads as -/

section

variable (s : State)

theorem regValue_status : regValue s 0x3 = statusWord s := rfl
theorem regValue_ctrl : regValue s 0x7 = (BitVec.ofBool s.cont).setWidth 32 := rfl
theorem regValue_enMask : regValue s 0x9 = enMaskWord s := rfl
theorem regValue_blMask : regValue s 0xA = blMaskWord s := rfl
theorem regValue_seq : regValue s 0xB = seqWord s.seq := rfl

/-- The addresses that name no readable register: CMD and 0xC to 0xF (R27, R42). -/
theorem unreadable_ne {a : BitVec 4} (h : a = 0x0 ∨ 0xC ≤ a.toNat) :
    a ≠ addrArg ∧ a ≠ addrResult ∧ a ≠ addrStatus ∧ a ≠ addrConfig ∧ a ≠ addrBlinkIv ∧ a ≠ addrUnkGlyph ∧
      a ≠ addrCtrl ∧ a ≠ addrNowMs ∧ a ≠ addrEnMask ∧ a ≠ addrBlMask ∧ a ≠ addrSeq := by
  revert a; decide

/-- CMD and the reserved addresses read 0 (R28, R42). -/
theorem regValue_reserved {a : BitVec 4} (h : a = 0x0 ∨ 0xC ≤ a.toNat) : regValue s a = 0 := by
  simp [regValue, unreadable_ne h]

end

/-! ## STATUS, CONFIG and SEQ -/

theorem statusWord_getLsbD (s : State) (k : Nat) :
    (statusWord s).getLsbD k =
      if k = 0 then s.init else if k = 1 then busy s else if k = 2 then s.rej else if k = 3 then s.pend else false := by
  simp only [statusWord, BitVec.getLsbD_append, BitVec.getLsbD_ofBool, BitVec.getLsbD_zero]
  rcases k with _ | _ | _ | _ | k <;> simp

/-- Settles O24, from the bits of the status word. -/
theorem statusReadsItsBits : Obligations.StatusReadsItsBits := by
  intro s
  rw [regValue_status]
  refine ⟨statusWord_getLsbD s 0, statusWord_getLsbD s 1, statusWord_getLsbD s 2, statusWord_getLsbD s 3, fun k hk => ?_⟩
  rw [statusWord_getLsbD, if_neg (by omega), if_neg (by omega), if_neg (by omega), if_neg (by omega)]

section

variable (s : State) (q : SeqRegs)

theorem configWord_flags : (configWord s).getLsbD 0 = s.pol ∧ (configWord s).getLsbD 1 = s.hasDp := by
  simp only [configWord, BitVec.getLsbD_append, BitVec.getLsbD_ofBool]
  simp

theorem configWord_fields :
    (configWord s).extractLsb' 2 2 = 0#2 ∧ (configWord s).extractLsb' 4 4 = s.dlen ∧
      (configWord s).extractLsb' 8 8 = s.dwell ∧ (configWord s).extractLsb' 16 8 = s.bright ∧
      (configWord s).extractLsb' 24 8 = 0#8 := by
  simp (disch := decide) only [configWord, BitVec.extractLsb'_append_eq_of_le,
    BitVec.extractLsb'_append_eq_of_add_le, Nat.reduceSub, BitVec.extractLsb'_eq_self, and_self]

theorem seqWord_flags : (seqWord q).getLsbD 2 = q.lit ∧ (seqWord q).getLsbD 3 = false := by
  simp only [seqWord, BitVec.getLsbD_append, BitVec.getLsbD_ofBool]
  simp

theorem seqWord_fields :
    (seqWord q).extractLsb' 0 2 = seqStateCode q.state ∧ (seqWord q).extractLsb' 4 4 = q.idx ∧
      (seqWord q).extractLsb' 8 8 = q.cnt ∧ (seqWord q).extractLsb' 16 8 = q.latch ∧
      (seqWord q).extractLsb' 24 8 = 0#8 := by
  simp (disch := decide) only [seqWord, BitVec.extractLsb'_append_eq_of_le,
    BitVec.extractLsb'_append_eq_of_add_le, Nat.reduceSub, BitVec.extractLsb'_eq_self, and_self]

end

/-- Settles O25, from the flags and the fields of the two words. -/
theorem configAndSeqReadTheirFields : Obligations.ConfigAndSeqReadTheirFields := by
  intro s
  obtain ⟨hpol, hdp⟩ := configWord_flags s
  obtain ⟨hlit, hzero⟩ := seqWord_flags s.seq
  obtain ⟨hstate, hfields⟩ := seqWord_fields s.seq
  refine ⟨⟨hpol, hdp, configWord_fields s⟩, ?_, hlit, hzero, hfields⟩
  rw [regValue_seq, hstate]
  cases s.seq.state <;> rfl

/-! ## The masks -/

/-- Bit i of the number is entry i of the list. -/
theorem bitsToNat_testBit (bs : List Bool) (i : Nat) : (bitsToNat bs).testBit i = bs.getD i false := by
  induction bs generalizing i with
  | nil => simp [bitsToNat]
  | cons b bs ih =>
    cases i with
    | zero => cases b <;> simp [bitsToNat, Nat.testBit_zero]
    | succ i =>
      have hhalf : (b.toNat + 2 * bitsToNat bs) / 2 = bitsToNat bs := by cases b <;> simp; omega
      rw [bitsToNat, Nat.testBit_succ, hhalf, ih]
      rfl

/-- The bits of a word that mirrors a list no longer than it. -/
theorem ofNat_bitsToNat_getLsbD {n : Nat} {bs : List Bool} (h : bs.length ≤ n) (i : Nat) :
    (BitVec.ofNat n (bitsToNat bs)).getLsbD i = (decide (i < bs.length) && bs.getD i false) := by
  rw [BitVec.getLsbD_ofNat, bitsToNat_testBit]
  by_cases hi : i < bs.length
  · simp [hi, show i < n by omega]
  · simp [hi]

/-- Settles O26: each mask mirrors a list of MAXDIGITS flags, which a word can hold. -/
theorem masksMirrorTheFlags : Obligations.MasksMirrorTheFlags := by
  rintro s ⟨_, hen, hbl⟩ ⟨_, hmax, _⟩ i
  rw [← hen] at hmax
  refine ⟨?_, ?_⟩
  · rw [regValue_enMask, enMaskWord, ofNat_bitsToNat_getLsbD (by omega), hen, enAt]
  · rw [regValue_blMask, blMaskWord, ofNat_bitsToNat_getLsbD (by omega), hbl, blAt]

/-! ## The other registers -/

/-- A narrow register reads in the low bits, 0 above. -/
theorem setWidth_fields {n m : Nat} (x : BitVec n) :
    (x.setWidth (m + n)).extractLsb' 0 n = x ∧ (x.setWidth (m + n)).extractLsb' n m = 0#m := by
  constructor <;> apply BitVec.eq_of_getLsbD_eq <;> intro i hi <;> simp [hi]
  · omega

/-- Settles O27, address by address. -/
theorem answerAndTimeRegistersRead : Obligations.AnswerAndTimeRegistersRead := by
  intro s
  obtain ⟨hlow, hhigh⟩ := setWidth_fields (m := 24) s.unkGlyph
  exact ⟨rfl, rfl, rfl, hlow, hhigh, fun a ha => regValue_reserved s (.inr ha)⟩

/-- Settles O28, register by register: each write is its register's rule, each read its field's. -/
theorem openRegistersTakeTheirWrites : Obligations.OpenRegistersTakeTheirWrites := by
  intro s w
  obtain ⟨hlow, hhigh⟩ := setWidth_fields (m := 16) s.iv
  refine ⟨⟨rfl, rfl⟩, fun h => ?_, fun h => ?_, hlow, hhigh, rfl, fun k => ?_, fun h => ?_, fun h => ?_⟩
  · exact congrArg Host.Outcome.next (if_pos h)
  · exact congrArg Host.Outcome.next (if_neg (not_not.2 h))
  · rw [regValue_ctrl]
    cases k <;> simp
  · exact congrArg Host.Outcome.next (if_pos h)
  · exact congrArg Host.Outcome.next (if_neg (Bool.not_eq_true _ ▸ h))

/-- Settles O29: before INIT a CONFIG write stores its fields and adds to REJ whether one was illegal. -/
theorem configurationWritesBeforeInit : Obligations.ConfigurationWritesBeforeInit := by
  intro s w hi
  refine ⟨⟨writeConfig w s, rfl, ?_⟩, ?_⟩
  · rw [writeConfig_before_init w s hi]
    have rejects : configLegal w s ≠ true → (s.rej || !configLegal w s) = true := fun h => by simp [h]
    refine ⟨rfl, rfl, rfl, fun h => ?_, fun h => ⟨?_, rejects fun hc => ?_⟩, fun h => ?_,
      fun h => ⟨?_, rejects fun hc => ?_⟩, fun h1 h2 h3 => ?_, rfl⟩
    · exact if_pos ((dlenLegal_iff s _).2 h)
    · exact if_neg (mt (dlenLegal_iff s _).1 h)
    · exact h ((configLegal_iff w s).1 hc).1
    · exact if_pos h
    · exact if_neg (not_not.2 h)
    · exact ((configLegal_iff w s).1 hc).2 h
    · rw [setRej_rej, (configLegal_iff w s).2 ⟨⟨h1, h2⟩, h3⟩]
      simp
  · exact congrArg Host.Outcome.next (if_neg (by simp [hi]))

/-- Settles O30, by the cases of a write's address, and by the lock of CONFIG and UNK_GLYPH. -/
theorem lockedAndReadOnlyWritesAreRejected : Obligations.LockedAndReadOnlyWritesAreRejected := by
  intro s w a
  refine ⟨fun ha => ?_, fun hi ha => ?_⟩
  · rcases writeReg_cases a w s with ⟨rfl, _⟩ | ⟨rfl, _⟩ | ⟨rfl, _⟩ | ⟨rfl, _⟩ | ⟨rfl, _⟩ | ⟨rfl, _⟩ | ⟨rfl, _⟩ | ⟨_, e⟩
    case inr.inr.inr.inr.inr.inr.inr => exact e
    all_goals exact absurd ha (by decide)
  · rcases ha with rfl | rfl
    · exact congrArg Host.Outcome.next (if_pos hi)
    · exact congrArg Host.Outcome.next (if_pos hi)

end Sys2Proof.Machine
end

section
/-!
PROOFS. REJ, operation by operation: what sets it and what clears it (spec/60_exceptions.md R260 to R262,
spec/10_state.md R38).
-/

namespace Sys2Proof.Machine

/-! ## Commands -/

section

variable {s : State}

/-- An effect that leaves REJ, behind a check that rejects. -/
theorem checked_rej {p : Prop} [Decidable p] {a : State} (h : a.rej = s.rej) :
    (if p then a else reject s).rej = true ↔ s.rej = true ∨ ¬ p := by
  by_cases hp : p <;> simp [hp, h]

theorem writeDigit_rej (d : Nat) (b : Byte) : (writeDigit d b s).rej = true ↔ s.rej = true ∨ ¬ d < s.len :=
  checked_rej rfl

theorem answer_rej (valid : Bool) (v : Word) : (answer valid v s).rej = true ↔ s.rej = true ∨ valid = false := by
  simp [answer_eq]

/-- After INIT a command sets REJ when it is INIT again or has a flaw of its own (R261). -/
theorem effectOf_rej (i : Instr) :
    (effectOf i s).rej = true ↔ s.rej = true ∨ i = .init ∨ commandFlaw s i := by
  cases i <;> simp only [effectOf, commandFlaw, reduceCtorEq, false_or, or_false]
  case init => simp
  case clear | refresh | shift | enAll | blinkAll => exact Iff.rfl
  case setByte | setDigit | setChar => exact writeDigit_rej _ _
  case setSeg d k on =>
    cases hk : segValid s k
    · simp
    · simpa using writeDigit_rej (s := s) d _
  case setInt =>
    rw [checked_rej, valueInRange_iff, argInt]
    rfl
  case enDigit | blinkDigit =>
    rw [checked_rej, digitValid_iff]
    rfl
  case getByte d =>
    rw [answer_rej, ← Bool.not_eq_true, digitValid_iff]
  case getSeg d k =>
    rw [answer_rej, Bool.and_eq_false_iff, ← Bool.not_eq_true (digitValid s d), digitValid_iff]
  case segSet | segTest => exact answer_rej _ _
  all_goals simp [answer_rej]

/-- A command sets REJ exactly when R261 lists it. -/
theorem exec_rej {i : Instr} {t : State} (h : exec i s = .next t) :
    t.rej = true ↔ s.rej = true ∨ commandRejects s i := by
  rcases exec_cases h with ⟨hi, rfl⟩ | ⟨hi, ⟨rfl, rfl⟩ | ⟨rfl, rfl⟩ | ⟨hn, hn', rfl⟩⟩
  · simp [effectOf_rej, commandRejects, hi]
  · simp [commandRejects, hi]
  · simp [commandRejects, hi]
  · simp [commandRejects, hi, hn, hn']

/-- The causes of REJ do not read PEND. -/
theorem commandRejects_setPend (v : Bool) (i : Instr) : commandRejects (s.setPend v) i ↔ commandRejects s i := by
  cases i <;> exact Iff.rfl

end

/-! ## Register writes -/

section

variable (w : Word) (s : State)

theorem writeStatus_rej : (writeStatus w s).rej = true ↔ s.rej = true ∧ ¬ w.getLsbD 2 = true := by
  unfold writeStatus
  split
  · next hw => exact iff_of_false (by simp [clearRej]) (fun h => h.2 hw)
  · next hw => exact (and_iff_left hw).symm

theorem writeConfig_rej :
    (writeConfig w s).rej = true ↔ s.rej = true ∨ s.init = true ∨
      ¬ (1 ≤ (w.extractLsb' 4 4).toNat ∧ (w.extractLsb' 4 4).toNat ≤ s.cfg.maxDigits) ∨ w.extractLsb' 8 8 = 0#8 := by
  cases hi : s.init
  · rw [writeConfig_before_init w s hi, setRej_rej, Bool.or_eq_true, Bool.not_eq_true', ← Bool.not_eq_true,
      configLegal_iff, Classical.not_and_iff_not_or_not, ne_eq, not_not]
    simp
  · simp [writeConfig, hi]

theorem writeBlinkIv_rej : (writeBlinkIv w s).rej = true ↔ s.rej = true ∨ w.extractLsb' 0 16 = 0#16 := by
  rw [writeBlinkIv, checked_rej, not_not]
  exacts [Iff.rfl, rfl]

theorem writeUnkGlyph_rej : (writeUnkGlyph w s).rej = true ↔ s.rej = true ∨ s.init = true := by
  cases hi : s.init <;> simp [writeUnkGlyph, hi]

end

/-! ## The bus operation of a cycle -/

/-- A bus operation clears REJ: the STATUS write of R38. -/
def clearsRej (op : BusOp) : Prop := ∃ w, op = .write addrStatus w ∧ w.getLsbD 2 = true

theorem clearsRej_write (a : BitVec 4) (w : Word) :
    clearsRej (.write a w) ↔ a = addrStatus ∧ w.getLsbD 2 = true := by
  simp only [clearsRej, BusOp.write.injEq]
  constructor
  · rintro ⟨v, ⟨ha, rfl⟩, hv⟩; exact ⟨ha, hv⟩
  · rintro ⟨ha, hv⟩; exact ⟨w, ⟨ha, rfl⟩, hv⟩

/-- A word written to CMD sets REJ when it is reserved or its command is rejected (R98, R261). -/
theorem execWord_rej {w : Word} {s t : State} (h : execWord w s = .next t) :
    t.rej = true ↔
      s.rej = true ∨ (∃ e, decode w = .error e) ∨ ∃ i, decode w = .ok i ∧ commandRejects s i := by
  rcases execWord_cases w s with ⟨i, u, hd, hx, e, _⟩ | ⟨x, hd, e⟩ <;> rw [e] at h <;> injection h with h <;> subst h
  · simp [hd, exec_rej hx]
  · simp [hd]

/-- After a bus operation REJ is 1 when it is an event of R261, or REJ was 1 and it does not clear it. -/
theorem busEffect_rej {op : BusOp} {s t : State} (h : busEffect op s = .next t) :
    t.rej = true ↔ rejEvent s op ∨ (s.rej = true ∧ ¬ clearsRej op) := by
  cases op with
  | idle => injection h with h; simp [rejEvent, clearsRej, h]
  | read a => injection h with h; simp [rejEvent, clearsRej, h]
  | write a w =>
    rw [clearsRej_write]
    change writeReg a w s = .next t at h
    rcases writeReg_cases a w s with ⟨rfl, e⟩ | ⟨rfl, e⟩ | ⟨rfl, e⟩ | ⟨rfl, e⟩ | ⟨rfl, e⟩ | ⟨rfl, e⟩ | ⟨rfl, e⟩ | ⟨ha, e⟩ <;>
      rw [e] at h
    case inl =>
      rw [execWord_rej h]
      simp [rejEvent, addrCmd, addrStatus, or_comm]
    all_goals
      injection h with h
      subst h
    · simp [rejEvent, addrArg, addrStatus, writeArg]
    · simp [rejEvent, addrStatus, writeStatus_rej]
    · rw [writeConfig_rej]; simp [rejEvent, addrConfig, addrStatus, or_comm]
    · rw [writeBlinkIv_rej]; simp [rejEvent, addrBlinkIv, addrStatus, or_comm]
    · rw [writeUnkGlyph_rej]; simp [rejEvent, addrUnkGlyph, addrStatus, or_comm]
    · simp [rejEvent, addrCtrl, addrStatus, writeCtrl]
    · have he : rejEvent s (.write a w) := .inr (.inr (.inr (.inr ha)))
      simp [he]

/-- The events of R261 do not read PEND. -/
theorem rejEvent_setPend (v : Bool) (s : State) (op : BusOp) : rejEvent (s.setPend v) op ↔ rejEvent s op := by
  cases op with
  | idle => exact Iff.rfl
  | read a => exact Iff.rfl
  | write a w => simp only [rejEvent, commandRejects_setPend, setPend_init, setPend_cfg]

/-- Settles O22: the clock's part of a cycle leaves REJ, and `busEffect_rej` says what the bus operation makes of it. -/
theorem rejIsSetExactlyByTheListedEvents : Obligations.RejIsSetExactlyByTheListedEvents := by
  intro s t hr h
  rcases step_cases h with ⟨hr', _⟩ | ⟨_, e, he, _, rfl⟩
  · rw [hr] at hr'; cases hr'
  · have hrej := busEffect_rej he
    rwa [rejEvent_setPend, setPend_rej] at hrej

end Sys2Proof.Machine
end

section
/-!
PROOFS. Statements about the whole cycle: the reset cycle (spec/70_reset_and_hazards.md R280), the configuration after INIT
(spec/10_state.md R33, R35) and reads (spec/20_memory.md R72).
-/

namespace Sys2Proof.Machine

/-- A cycle without reset from any state (R246). -/
theorem step_without_reset {s t : State} (hr : (thisInput s).rst = false) (h : step s = .next t) :
    ∃ e, busEffect (thisInput s).op (s.setPend false) = .next e ∧ t = commit s (thisInput s).op e := by
  rcases step_cases h with ⟨hr', _⟩ | ⟨_, e, he, _, ht⟩
  · rw [hr] at hr'; cases hr'
  · exact ⟨e, he, ht⟩

/-- A reset cycle (R280). -/
theorem step_reset {s : State} (hr : (thisInput s).rst = true) : step s = .next (resetEdge s) := by
  rw [step, clockCycle, cycleWith, if_pos hr]

/-- Settles O7: the reset edge builds R50's state from the parameters alone. -/
theorem resetCycleGivesTheResetState : Obligations.ResetCycleGivesTheResetState := by
  intro s op rest h
  refine ⟨resetEdge s, step_reset (by rw [thisInput_cons h]), ?_⟩
  exact ⟨rfl, rfl, rfl, rfl, rfl, rfl, rfl, rfl, rfl, rfl, rfl, rfl, rfl, rfl, rfl, rfl, rfl, rfl, rfl, rfl⟩

/-- Settles O20: the clock's part of a cycle writes no configuration, and after INIT the bus operation keeps it. -/
theorem configurationIsFrozenAfterInit : Obligations.ConfigurationIsFrozenAfterInit := by
  intro s t hi hr h
  obtain ⟨e, he, rfl⟩ := step_without_reset hr h
  have hkept := busEffect_after_init he hi
  exact hkept

/-- Settles O14: a read and an idle cycle commit the same writes, none, with the same clock's part; rdata alone tells which
operation the cycle carried. -/
theorem readsHaveNoSideEffect : Obligations.ReadsHaveNoSideEffect := by
  refine ⟨fun s t a w rest h => ?_, fun s a rest t u ht hu => ?_⟩
  · obtain ⟨e, _, rfl⟩ := step_without_reset rfl h
    rfl
  · obtain ⟨e, he, rfl⟩ := step_without_reset rfl ht
    obtain ⟨e', he', rfl⟩ := step_without_reset rfl hu
    injection he with he
    injection he' with he'
    subst he he'
    exact ⟨rfl, rfl, fun ha => regValue_reserved s ha⟩

end Sys2Proof.Machine
end

section
/-!
PROOFS. No command depends on an array entry at DLEN or above (spec/10_state.md R20): two states that differ in such entries
alone still do so after the same command.
-/

namespace Sys2Proof.Machine

/-- The states differ at most in array entries at DLEN and above. -/
structure AgreeBelow (s s' : State) : Prop where
  /-- Outside the arrays they are equal. -/
  frame : s' = { s with fb := s'.fb, en := s'.en, bl := s'.bl }
  /-- Their frame buffers have the same length. -/
  fbLength : s'.fb.length = s.fb.length
  /-- Their enable flags have the same length. -/
  enLength : s'.en.length = s.en.length
  /-- Their blink flags have the same length. -/
  blLength : s'.bl.length = s.bl.length
  /-- Below DLEN their entries are equal. -/
  entries : ∀ a < s.len, fbAt s' a = fbAt s a ∧ enAt s' a = enAt s a ∧ blAt s' a = blAt s a

/-! ## What the operations make of it -/

section

variable {s s' : State} (h : AgreeBelow s s')
include h

theorem agreeBelow_len : s'.len = s.len := by
  rw [h.frame]
  rfl

theorem agreeBelow_setRej (v : Bool) : AgreeBelow (s.setRej v) (s'.setRej v) :=
  ⟨by rw [h.frame]; rfl, h.fbLength, h.enLength, h.blLength, h.entries⟩

theorem agreeBelow_reject : AgreeBelow (reject s) (reject s') := agreeBelow_setRej h true

theorem agreeBelow_setPend (v : Bool) : AgreeBelow (s.setPend v) (s'.setPend v) :=
  ⟨by rw [h.frame]; rfl, h.fbLength, h.enLength, h.blLength, h.entries⟩

theorem agreeBelow_setInit (v : Bool) : AgreeBelow (s.setInit v) (s'.setInit v) :=
  ⟨by rw [h.frame]; rfl, h.fbLength, h.enLength, h.blLength, h.entries⟩

theorem agreeBelow_setResult (v : Word) : AgreeBelow (s.setResult v) (s'.setResult v) :=
  ⟨by rw [h.frame]; rfl, h.fbLength, h.enLength, h.blLength, h.entries⟩

/-- A query agrees when its answer does. -/
theorem agreeBelow_answer (valid : Bool) {v v' : Word} (hv : v' = v) :
    AgreeBelow (answer valid v s) (answer valid v' s') := by
  subst hv
  cases valid
  · exact agreeBelow_reject (agreeBelow_setResult h v')
  · exact agreeBelow_setResult h v'

/-- A write of one byte agrees when the byte does, if it is written at all. -/
theorem agreeBelow_writeDigit (d : Nat) {b b' : Byte} (hb : d < s.len → b' = b) :
    AgreeBelow (writeDigit d b s) (writeDigit d b' s') := by
  unfold writeDigit
  rw [agreeBelow_len h]
  split
  · next hd =>
    rw [hb hd]
    refine ⟨by rw [h.frame]; rfl, by simpa using h.fbLength, h.enLength, h.blLength, fun a ha => ?_⟩
    rw [fbAt_set, fbAt_set, h.fbLength, (h.entries a ha).1]
    exact ⟨rfl, (h.entries a ha).2⟩
  · exact agreeBelow_reject h

/-- A whole-buffer write agrees when what it writes does. -/
theorem agreeBelow_writeBuffer {f f' : Nat → Byte} (hf : ∀ a, f' a = f a) :
    AgreeBelow (writeBuffer f s) (writeBuffer f' s') := by
  refine ⟨by rw [h.frame]; rfl, by simpa [writeBuffer] using h.fbLength, h.enLength, h.blLength, fun a ha => ?_⟩
  rw [fbAt_writeBuffer, fbAt_writeBuffer, h.fbLength, agreeBelow_len h, hf, (h.entries a ha).1]
  exact ⟨rfl, (h.entries a ha).2⟩

theorem agreeBelow_setEn_set (d : Nat) (on : Bool) :
    AgreeBelow (s.setEn (s.en.set d on)) (s'.setEn (s'.en.set d on)) := by
  refine ⟨by rw [h.frame]; rfl, h.fbLength, by simpa using h.enLength, h.blLength, fun a ha => ?_⟩
  obtain ⟨hfb, hen, hbl⟩ := h.entries a ha
  rw [enAt_set, enAt_set, h.enLength, hen]
  exact ⟨hfb, rfl, hbl⟩

theorem agreeBelow_setBl_set (d : Nat) (on : Bool) :
    AgreeBelow (s.setBl (s.bl.set d on)) (s'.setBl (s'.bl.set d on)) := by
  refine ⟨by rw [h.frame]; rfl, h.fbLength, h.enLength, by simpa using h.blLength, fun a ha => ?_⟩
  obtain ⟨hfb, hen, hbl⟩ := h.entries a ha
  rw [blAt_set, blAt_set, h.blLength, hbl]
  exact ⟨hfb, hen, rfl⟩

theorem agreeBelow_setEn_writeFirst (g : Nat → Bool) :
    AgreeBelow (s.setEn (writeFirst s.len g s.en)) (s'.setEn (writeFirst s'.len g s'.en)) := by
  refine ⟨by rw [h.frame]; rfl, h.fbLength, by simpa using h.enLength, h.blLength, fun a ha => ?_⟩
  obtain ⟨hfb, hen, hbl⟩ := h.entries a ha
  rw [enAt_writeFirst, enAt_writeFirst, h.enLength, agreeBelow_len h, hen]
  exact ⟨hfb, rfl, hbl⟩

theorem agreeBelow_setBl_writeFirst (g : Nat → Bool) :
    AgreeBelow (s.setBl (writeFirst s.len g s.bl)) (s'.setBl (writeFirst s'.len g s'.bl)) := by
  refine ⟨by rw [h.frame]; rfl, h.fbLength, h.enLength, by simpa using h.blLength, fun a ha => ?_⟩
  obtain ⟨hfb, hen, hbl⟩ := h.entries a ha
  rw [blAt_writeFirst, blAt_writeFirst, h.blLength, agreeBelow_len h, hbl]
  exact ⟨hfb, hen, rfl⟩

/-- SHIFT moves bytes of the display alone. -/
theorem shiftedByte_agree (k : Int) (i : Nat) : shiftedByte s' k i = shiftedByte s k i := by
  simp only [shiftedByte, agreeBelow_len h]
  split
  · next hj => exact (h.entries _ (by omega)).1
  · rfl

end

/-- A check of both states, with effects that agree. -/
theorem agreeBelow_ite {p : Prop} [Decidable p] {a a' b b' : State} (ha : AgreeBelow a a') (hb : AgreeBelow b b') :
    AgreeBelow (if p then a else b) (if p then a' else b') := by
  split
  · exact ha
  · exact hb

/-! ## The commands -/

/-- A command's effect keeps the agreement: its checks read no array, and the bytes that it reads lie below DLEN. -/
theorem effectOf_agree (i : Instr) {s s' : State} (h : AgreeBelow s s') : AgreeBelow (effectOf i s) (effectOf i s') := by
  obtain ⟨fb, en, bl, rfl⟩ : ∃ fb en bl, s' = { s with fb := fb, en := en, bl := bl } := ⟨_, _, _, h.frame⟩
  cases i
  case nop => exact h
  case init => exact agreeBelow_reject h
  case refresh => exact agreeBelow_setPend h true
  case clear => exact agreeBelow_writeBuffer h fun _ => rfl
  case shift k => exact agreeBelow_writeBuffer h (shiftedByte_agree h k)
  case setInt => exact agreeBelow_ite (agreeBelow_writeBuffer h fun _ => rfl) (agreeBelow_reject h)
  case setByte | setDigit | setChar => exact agreeBelow_writeDigit h _ fun _ => rfl
  case setSeg d k on =>
    refine agreeBelow_ite (agreeBelow_writeDigit h d fun hd => ?_) (agreeBelow_reject h)
    rw [(h.entries d hd).1]
    rfl
  case enDigit => exact agreeBelow_ite (agreeBelow_setEn_set h _ _) (agreeBelow_reject h)
  case blinkDigit => exact agreeBelow_ite (agreeBelow_setBl_set h _ _) (agreeBelow_reject h)
  case enAll => exact agreeBelow_setEn_writeFirst h _
  case blinkAll => exact agreeBelow_setBl_writeFirst h _
  case getByte d =>
    refine agreeBelow_answer h _ (ite_congr rfl (fun hd => ?_) fun _ => rfl)
    rw [(h.entries d ((digitValid_iff s d).1 hd)).1]
  case getSeg d k =>
    refine agreeBelow_answer h _ (ite_congr rfl (fun hd => ?_) fun _ => rfl)
    rw [(h.entries d ((digitValid_iff s d).1 (Bool.and_eq_true_iff.1 hd).1)).1]
  all_goals exact agreeBelow_answer h _ rfl

/-- Every command keeps the agreement. -/
theorem exec_agree {i : Instr} {s s' t t' : State} (h : AgreeBelow s s') (ht : exec i s = .next t)
    (ht' : exec i s' = .next t') : AgreeBelow t t' := by
  rw [exec_eq] at ht ht'
  injection ht with ht
  injection ht' with ht'
  subst ht ht'
  have hinit : s'.init = s.init := by rw [h.frame]
  rw [hinit]
  exact agreeBelow_ite (effectOf_agree i h)
    (agreeBelow_ite h (agreeBelow_ite (agreeBelow_setInit h true) (agreeBelow_reject h)))

/-- Settles O47: what a command leaves is `exec_keepsBeyond`, what it does not read `exec_agree`. -/
theorem commandsStayBelowDlen : Obligations.CommandsStayBelowDlen := by
  refine ⟨fun i s t h _ => (exec_keepsBeyond h).2, fun i s s' t t' hs hs' hframe hentries ht ht' => ?_⟩
  obtain ⟨⟨wfb, wen, wbl⟩, _⟩ := hs
  obtain ⟨⟨wfb', wen', wbl'⟩, _⟩ := hs'
  have hcfg : s'.cfg = s.cfg := by rw [hframe]
  rw [hcfg] at wfb' wen' wbl'
  have hst : AgreeBelow s s' :=
    ⟨hframe, wfb'.trans wfb.symm, wen'.trans wen.symm, wbl'.trans wbl.symm, hentries⟩
  have htt : AgreeBelow t t' := exec_agree hst ht ht'
  refine ⟨by rw [htt.frame], by rw [htt.frame], by rw [htt.frame], by rw [htt.frame], fun a ha => htt.entries a ?_⟩
  rwa [exec_len ht]

end Sys2Proof.Machine
end

section
/-!
PROOFS. Polarity acts at the output ports alone (spec/10_state.md R21, spec/43_scan_sequencer.md R221).
-/

namespace Sys2Proof.Machine

/-- The state with another polarity. -/
def State.withPol (s : State) (p : Bool) : State := { s with pol := p }

section

variable (s : State) (p : Bool)

/-- A check that does not read POL. -/
theorem ite_withPol {c : Prop} [Decidable c] {a a' b b' : State} (ha : a' = a.withPol p) (hb : b' = b.withPol p) :
    (if c then a' else b') = (if c then a else b).withPol p := by
  rw [ha, hb, apply_ite (State.withPol · p)]

theorem writeDigit_withPol (d : Nat) (b : Byte) : writeDigit d b (s.withPol p) = (writeDigit d b s).withPol p := by
  unfold writeDigit
  exact ite_withPol p rfl rfl

theorem answer_withPol (valid : Bool) (v : Word) : answer valid v (s.withPol p) = (answer valid v s).withPol p := by
  rw [answer_eq, answer_eq]
  rfl

/-- A command's effect neither reads nor writes POL. -/
theorem effectOf_withPol (i : Instr) : effectOf i (s.withPol p) = (effectOf i s).withPol p := by
  cases i
  case nop | init | clear | refresh | shift | enAll | blinkAll => rfl
  case setByte | setDigit | setChar => exact writeDigit_withPol s p _ _
  case setSeg => exact ite_withPol p (writeDigit_withPol s p _ _) rfl
  case setInt | enDigit | blinkDigit => exact ite_withPol p rfl rfl
  all_goals exact answer_withPol s p _ _

/-- Every command commutes with a change of polarity. -/
theorem exec_withPol (i : Instr) : exec i (s.withPol p) = mapNext (State.withPol · p) (exec i s) := by
  rw [exec_eq, exec_eq, mapNext_next]
  exact congrArg Host.Outcome.next
    (ite_withPol p (effectOf_withPol s p i) (ite_withPol p rfl (ite_withPol p rfl rfl)))

end

/-- The bits of the segment output byte are the segment lines. -/
theorem segOutByte_getLsbD (s : State) {k : Nat} (hk : k < 8) : (segOutByte s).getLsbD k = segOut s k := by
  rw [segOutByte, ofNat_bitsToNat_getLsbD (by simp)]
  simp [hk]

/-- Flipping POL inverts every segment line (R221). -/
theorem segOut_flip (s : State) (k : Nat) : segOut (s.withPol (!s.pol)) k = !segOut s k :=
  Bool.xor_not _ _

/-- Flipping POL inverts the segment output byte (R221). -/
theorem segOutByte_flip (s : State) : segOutByte (s.withPol (!s.pol)) = ~~~ segOutByte s := by
  apply BitVec.eq_of_getLsbD_eq
  intro k hk
  rw [segOutByte_getLsbD _ hk, segOut_flip, BitVec.getLsbD_not, segOutByte_getLsbD _ hk]
  simp [hk]

/-- Settles O58: commands commute with a change of POL, and the segment lines are the one place where it acts. -/
theorem polarityActsAtTheOutputsOnly : Obligations.PolarityActsAtTheOutputsOnly := by
  intro i s t h
  have hp := exec_withPol s (!s.pol) i
  rw [h] at hp
  exact ⟨hp, segOutByte_flip s⟩

end Sys2Proof.Machine
end

section
/-!
PROOFS. The clock's part of a cycle (spec/20_memory.md R81, spec/44_lifecycle.md R247): the sequencer and the time base read
the state before the edge, and neither the writes of the cycle's bus operation nor what the host does in it.
-/

namespace Sys2Proof.Machine

/-- In a cycle without reset the sequencer registers and the time base come from the state before the edge, whatever the
bus operation writes (R201, R210, R247). -/
theorem step_clockPart {s t : State} (hr : (thisInput s).rst = false) (h : step s = .next t) :
    t.seq = seqStep s ∧ t.presc = nextPresc s ∧ t.nowMs = nextNow s := by
  obtain ⟨e, _, rfl⟩ := step_without_reset hr h
  exact ⟨commit_seq .., commit_presc .., commit_nowMs ..⟩

section

variable (s : State) (ins : List HostCycle)

/-! The host's cycles are no input of the clock's part. -/

@[simp] theorem nextPresc_withInputs : nextPresc { s with inputs := ins } = nextPresc s := rfl
@[simp] theorem nextNow_withInputs : nextNow { s with inputs := ins } = nextNow s := rfl
@[simp] theorem seqStep_withInputs : seqStep { s with inputs := ins } = seqStep s := rfl

end

/-- The clock's part of a cycle is a function of the state without the host's cycles. -/
theorem step_clockPart_withInputs {s t : State} {op : BusOp} {rest : List HostCycle}
    (h : step { s with inputs := { rst := false, op := op } :: rest } = .next t) :
    t.seq = seqStep s ∧ t.presc = nextPresc s ∧ t.nowMs = nextNow s := by
  have hclock := step_clockPart rfl h
  rwa [seqStep_withInputs, nextPresc_withInputs, nextNow_withInputs] at hclock

/-- Settles O12: both runs have the clock's part of the one state that they share. -/
theorem sequencerIgnoresTheBusOfItsCycle : Obligations.SequencerIgnoresTheBusOfItsCycle := by
  intro s op op' rest t t' h h'
  obtain ⟨hseq, hpresc, hnow⟩ := step_clockPart_withInputs h
  obtain ⟨hseq', hpresc', hnow'⟩ := step_clockPart_withInputs h'
  exact ⟨hseq.trans hseq'.symm, hpresc.trans hpresc'.symm, hnow.trans hnow'.symm⟩

end Sys2Proof.Machine
end

section
/-!
PROOFS. The decoder and the encoder (spec/30_encoding.md R91 to R99, R102). Everything follows from three facts: the opcode
alone selects the family (`decode_of_opcode`, `opcode_of_decode`), the operands are those of the word's fields
(`Instr.withFieldsOf`), and what is refused is what is reserved (`decode_error_iff`).
-/

namespace Sys2Proof

open Machine

/-! ## The decoder -/

/-- The command of the same family whose operands are the fields of the word (R92 to R97), written once for proofs. -/
def Instr.withFieldsOf (w : Word) : Instr → Instr
  | .nop => .nop
  | .init => .init
  | .clear => .clear
  | .refresh => .refresh
  | .setByte _ _ => .setByte (digitOperand w) (fieldB w)
  | .setDigit _ _ => .setDigit (digitOperand w) (valueOperand w)
  | .setChar _ _ => .setChar (digitOperand w) (fieldB w)
  | .setSeg _ _ _ => .setSeg (digitOperand w) (segOperand w) (flagB w)
  | .setInt _ => .setInt (flagB w)
  | .shift _ => .shift (shiftOperand w)
  | .enDigit _ _ => .enDigit (digitOperand w) (flagB w)
  | .blinkDigit _ _ => .blinkDigit (digitOperand w) (flagB w)
  | .enAll _ => .enAll (flagB w)
  | .blinkAll _ => .blinkAll (flagB w)
  | .getByte _ => .getByte (digitOperand w)
  | .getSeg _ _ => .getSeg (digitOperand w) (segOperand w)
  | .glyphDigit _ => .glyphDigit (valueOperand w)
  | .glyphChar _ => .glyphChar (fieldB w)
  | .glyphMinus => .glyphMinus
  | .glyphDot => .glyphDot
  | .segSet _ _ _ => .segSet (fieldB w) (segOperand w) (flagD w)
  | .segTest _ _ => .segTest (fieldB w) (segOperand w)
  | .invert _ => .invert (fieldB w)
  | .inRange => .inRange

/-- A word with the opcode of a family is the command of that family with the word's operands (R97). -/
theorem decode_of_opcode {w : Word} {i : Instr} (h : fieldOp w = opcode i) : decode w = .ok (i.withFieldsOf w) := by
  unfold decode
  rw [h]
  cases i <;> rfl

/-- A decoded command has the word's opcode, and its operands are the word's fields (R97). -/
theorem opcode_of_decode {w : Word} {i : Instr} (h : decode w = .ok i) : fieldOp w = opcode i ∧ i.withFieldsOf w = i := by
  unfold decode at h
  split at h <;> cases h
  all_goals
    next hop => exact ⟨BitVec.eq_of_toNat_eq hop, rfl⟩

/-- No command's opcode is reserved (R97, R98). -/
theorem reservedOp_opcode (i : Instr) : reservedOp (opcode i) = false := by
  cases i <;> rfl

/-- The ranges of the reserved opcodes (R98). -/
theorem reservedOp_iff (op : Byte) :
    reservedOp op = true ↔ (0x04 ≤ op.toNat ∧ op.toNat ≤ 0x0F) ∨ (0x16 ≤ op.toNat ∧ op.toNat ≤ 0x1F) ∨
      (0x24 ≤ op.toNat ∧ op.toNat ≤ 0x2F) ∨ 0x3A ≤ op.toNat := by
  simp only [reservedOp, Bool.or_eq_true, Bool.and_eq_true, decide_eq_true_eq, or_assoc]

/-- A refused word has a reserved opcode: all others are opcodes of commands (R98). -/
theorem reservedOp_of_decode_error {w : Word} {e : DecodeError} (h : decode w = .error e) :
    reservedOp (fieldOp w) = true ∧ e = .reservedOpcode (fieldOp w) := by
  unfold decode at h
  split at h <;> cases h
  refine ⟨?_, rfl⟩
  rw [reservedOp_iff]
  simp only [imp_false] at *
  omega

/-- The decoder refuses exactly the reserved opcodes, by name (R98). -/
theorem decode_error_iff {w : Word} {e : DecodeError} :
    decode w = .error e ↔ reservedOp (fieldOp w) = true ∧ e = .reservedOpcode (fieldOp w) := by
  refine ⟨reservedOp_of_decode_error, fun ⟨hr, he⟩ => ?_⟩
  cases hd : decode w with
  | ok i =>
    rw [(opcode_of_decode hd).1, reservedOp_opcode] at hr
    cases hr
  | error e' => rw [he, (reservedOp_of_decode_error hd).2]

/-! ## The encoder -/

section

variable (i : Instr)

@[simp] theorem fieldOp_encode : fieldOp (encode i) = opcode i := fieldOp_packWord _ _ _ _
@[simp] theorem fieldD_encode : fieldD (encode i) = (encodeFields i).1 := fieldD_packWord _ _ _ _
@[simp] theorem fieldS_encode : fieldS (encode i) = (encodeFields i).2.1 := fieldS_packWord _ _ _ _
@[simp] theorem fieldB_encode : fieldB (encode i) = (encodeFields i).2.2 := fieldB_packWord _ _ _ _

@[simp] theorem digitOperand_encode : digitOperand (encode i) = (encodeFields i).1.toNat := by
  rw [digitOperand, fieldD_encode]
@[simp] theorem segOperand_encode : segOperand (encode i) = (encodeFields i).2.1.toNat := by
  rw [segOperand, fieldS_encode]
@[simp] theorem valueOperand_encode : valueOperand (encode i) = (encodeFields i).2.2.toNat := by
  rw [valueOperand, fieldB_encode]
@[simp] theorem shiftOperand_encode : shiftOperand (encode i) = (encodeFields i).2.2.toInt := by
  rw [shiftOperand, fieldB_encode]
@[simp] theorem flagB_encode : flagB (encode i) = (encodeFields i).2.2.getLsbD 0 := by
  rw [flagB, fieldB_encode]
@[simp] theorem flagD_encode : flagD (encode i) = (encodeFields i).1.getLsbD 0 := by
  rw [flagD, fieldD_encode]

end

@[simp] theorem flagByte_getElem_zero (on : Bool) : (flagByte on)[0] = on := flagByte_getLsbD on

/-- The fields of a well-formed command's word give its operands back: a byte is its field, a flag is bit 0 of its field,
and a number is read back because it fits (R92 to R96, R102). -/
theorem withFieldsOf_encode {i : Instr} (h : i.wellFormed = true) : i.withFieldsOf (encode i) = i := by
  cases i <;> simp only [Instr.wellFormed, Bool.and_eq_true] at h
  case nop | init | clear | refresh | glyphMinus | glyphDot | inRange => rfl
  case setInt | enAll | blinkAll | glyphChar | invert =>
    simp [Instr.withFieldsOf, encodeFields]
  case setByte | setChar | enDigit | blinkDigit | getByte | glyphDigit | segSet | segTest =>
    simp [Instr.withFieldsOf, encodeFields, -BitVec.toNat_ofNat, toNat_ofNat_of_fits h]
  case setDigit | setSeg | getSeg =>
    simp [Instr.withFieldsOf, encodeFields, -BitVec.toNat_ofNat, toNat_ofNat_of_fits h.1, toNat_ofNat_of_fits h.2]
  case shift =>
    simp [Instr.withFieldsOf, encodeFields, -BitVec.toInt_ofInt, toInt_ofInt_of_fits h]

/-- Settles O1: the encoder's OP selects the family, and its other fields give the operands back. -/
theorem decodeEncodeAgree : Obligations.DecodeEncodeAgree := by
  intro i h
  rw [decode_of_opcode (fieldOp_encode i), withFieldsOf_encode h]

/-! ## Reserved opcodes -/

/-- A reserved word written to CMD sets REJ and nothing else, in every state (R98, R260). -/
theorem writeReg_cmd_reserved {w : Word} (h : reservedOp (fieldOp w) = true) (s : State) :
    writeReg addrCmd w s = .next (reject s) := by
  rw [writeReg, if_pos rfl, execWord, decode_error_iff.2 ⟨h, rfl⟩]

/-- Settles O3: `decode_error_iff`, and a refused word is rejected by the write to CMD. -/
theorem reservedOpcodesAreRejected : Obligations.ReservedOpcodesAreRejected := by
  intro w
  refine ⟨⟨fun ⟨_, he⟩ => (decode_error_iff.1 he).1, fun hr => ⟨_, decode_error_iff.2 ⟨hr, rfl⟩⟩⟩, ?_⟩
  exact fun hr s => writeReg_cmd_reserved hr s

/-! ## The bits that a command reads -/

section

variable (w m : Word)

theorem fieldD_and : fieldD (w &&& m) = fieldD w &&& fieldD m := BitVec.extractLsb'_and
theorem fieldS_and : fieldS (w &&& m) = fieldS w &&& fieldS m := BitVec.extractLsb'_and
theorem fieldB_and : fieldB (w &&& m) = fieldB w &&& fieldB m := BitVec.extractLsb'_and

theorem flagB_and : flagB (w &&& m) = (flagB w && flagB m) := by
  rw [flagB, fieldB_and, BitVec.getLsbD_and, flagB, flagB]

theorem flagD_and : flagD (w &&& m) = (flagD w && flagD m) := by
  rw [flagD, fieldD_and, BitVec.getLsbD_and, flagD, flagD]

end

/-! Two words that agree under a mask agree in each field that the mask covers. -/

section

variable {w v m : Word} (h : w &&& m = v &&& m)
include h

theorem fieldD_congr (hm : fieldD m = BitVec.allOnes 8) : fieldD w = fieldD v := by
  simpa only [fieldD_and, hm, BitVec.and_allOnes] using congrArg fieldD h

theorem fieldS_congr (hm : fieldS m = BitVec.allOnes 8) : fieldS w = fieldS v := by
  simpa only [fieldS_and, hm, BitVec.and_allOnes] using congrArg fieldS h

theorem fieldB_congr (hm : fieldB m = BitVec.allOnes 8) : fieldB w = fieldB v := by
  simpa only [fieldB_and, hm, BitVec.and_allOnes] using congrArg fieldB h

/-- A flag reads bit 0 of its field alone (R95). -/
theorem flagB_congr (hm : flagB m = true) : flagB w = flagB v := by
  simpa only [flagB_and, hm, Bool.and_true] using congrArg flagB h

theorem flagD_congr (hm : flagD m = true) : flagD w = flagD v := by
  simpa only [flagD_and, hm, Bool.and_true] using congrArg flagD h

end

/-- A command's operands depend on no bit outside those of its family's row (R95, R97, R99). -/
theorem withFieldsOf_congr {w v : Word} (i : Instr) (h : w &&& usedBits (opcode i) = v &&& usedBits (opcode i)) :
    i.withFieldsOf w = i.withFieldsOf v := by
  cases i <;> simp only [opcode, usedBits, BitVec.reduceToNat] at h <;>
    simp only [Instr.withFieldsOf, digitOperand, segOperand, valueOperand, shiftOperand]
  case setByte | setDigit | setChar => rw [fieldD_congr h (by decide), fieldB_congr h (by decide)]
  case setSeg => rw [fieldD_congr h (by decide), fieldS_congr h (by decide), flagB_congr h (by decide)]
  case setInt | enAll | blinkAll => rw [flagB_congr h (by decide)]
  case enDigit | blinkDigit => rw [fieldD_congr h (by decide), flagB_congr h (by decide)]
  case getByte => rw [fieldD_congr h (by decide)]
  case getSeg => rw [fieldD_congr h (by decide), fieldS_congr h (by decide)]
  case shift | glyphDigit | glyphChar | invert => rw [fieldB_congr h (by decide)]
  case segSet => rw [fieldB_congr h (by decide), fieldS_congr h (by decide), flagD_congr h (by decide)]
  case segTest => rw [fieldB_congr h (by decide), fieldS_congr h (by decide)]

/-- Settles O4: the shared opcode selects one family for both words or refuses both, and the family reads no other bits. -/
theorem unusedFieldsAreIgnored : Obligations.UnusedFieldsAreIgnored := by
  intro w v hop hbits
  cases hd : decode w with
  | ok i =>
    obtain ⟨hi, hfields⟩ := opcode_of_decode hd
    rw [hi] at hop hbits
    rw [decode_of_opcode hop.symm, ← withFieldsOf_congr i hbits, hfields]
  | error e =>
    rw [decode_error_iff, hop] at hd
    exact (decode_error_iff.2 hd).symm

/-! ## What the decoder answers -/

/-- Every value of an 8-bit field is an operand (R92, R93, R94). -/
theorem fitsField_toNat (b : Byte) : fitsField b.toNat = true := decide_eq_true b.isLt

/-- Every value of B is a shift (R96). -/
theorem fitsShift_toInt (b : Byte) : fitsShift b.toInt = true := by
  have hlo := BitVec.le_toInt b
  have hhi := BitVec.toInt_lt (x := b)
  simp only [fitsShift, Bool.and_eq_true, decide_eq_true_eq]
  omega

/-- Operands taken from the fields of a word fit them (R91). -/
theorem withFieldsOf_wellFormed (w : Word) (i : Instr) : (i.withFieldsOf w).wellFormed = true := by
  cases i <;> simp only [Instr.withFieldsOf, Instr.wellFormed, Bool.and_eq_true]
  case setByte | setChar | enDigit | blinkDigit | getByte | glyphDigit | segSet | segTest => exact fitsField_toNat _
  case setDigit | setSeg | getSeg => exact ⟨fitsField_toNat _, fitsField_toNat _⟩
  case shift => exact fitsShift_toInt _

/-- Settles O2: the operands of a decoded command are the word's fields. -/
theorem decodedCommandsAreWellFormed : Obligations.DecodedCommandsAreWellFormed := by
  intro w i h
  rw [← (opcode_of_decode h).2]
  exact withFieldsOf_wellFormed w i

/-- Settles O5: each word has the opcode of its line's family, and its fields are that line's operands. -/
theorem exampleWordsDecode : Obligations.ExampleWordsDecode :=
  ⟨rfl, rfl, rfl, rfl, rfl, rfl, rfl, rfl, rfl, rfl, rfl, rfl, rfl, rfl, rfl, rfl⟩

end Sys2Proof
end

section
/-!
PROOFS. A cycle in which the host writes a command (spec/30_encoding.md R90, spec/44_lifecycle.md R246).
-/

namespace Sys2Proof.Machine

/-- A cycle without reset commits what its bus operation writes (R246). -/
theorem step_of_busEffect {s e : State} (hr : (thisInput s).rst = false)
    (he : busEffect (thisInput s).op (s.setPend false) = .next e) :
    step s = .next (commit s (thisInput s).op e) := by
  rw [step, clockCycle, cycleWith, if_neg (Bool.eq_false_iff.1 hr), he, mapNext_next]

/-- A command written to CMD is what the cycle's bus operation does (R90). -/
theorem busEffect_command {w : Word} {i : Instr} (h : decode w = .ok i) (s : State) :
    busEffect (.write addrCmd w) s = exec i s := by
  rw [busEffect, writeReg, if_pos rfl, execWord, h]

/-- The prescaler wraps at CLK_PER_MS - 1 (R200). -/
theorem tick_iff (s : State) : tick s = true ↔ s.presc = s.cfg.clkPerMs - 1 := beq_iff_eq

/-- What a cycle commits, with the time base written out (R200, R201, R246). -/
theorem commit_eq (s : State) (op : BusOp) (e : State) :
    commit s op e =
      { e with
        presc := if s.presc = s.cfg.clkPerMs - 1 then 0 else s.presc + 1
        nowMs := if s.presc = s.cfg.clkPerMs - 1 then s.nowMs + 1 else s.nowMs
        seq := seqStep s
        pend := if e.pend then true else if passStarts s then false else s.pend
        inputs := s.inputs.tail
        rdata := readData s op } := by
  simp only [commit, nextPresc, nextNow, tick_iff, mergePend]

/-- Settles O6: the word's command answers a next state, and the cycle commits it. -/
theorem stepRunsTheDecodedCommand : Obligations.StepRunsTheDecodedCommand := by
  intro s w i rest hin hd
  obtain ⟨e, he, _⟩ := exec_frame i (s.setPend false)
  have hthis : thisInput s = writeCycle addrCmd w := thisInput_cons hin
  have hbus : busEffect (thisInput s).op (s.setPend false) = .next e := by
    rw [hthis]
    exact (busEffect_command hd _).trans he
  refine ⟨e, he, ?_⟩
  rw [step_of_busEffect (by rw [hthis]; rfl) hbus, commit_eq, hthis, hin]
  rfl

end Sys2Proof.Machine
end

section
/-!
PROOFS. The queries of the glyph encoder (spec/40_glyph_encoder.md R130 to R137) and the segment bit functions (R120 to
R122). What a query's word decodes to is `decode_of_opcode`; after INIT it makes of the state what `effectOf` says
(`exec_of_init`), and before INIT it is rejected (`exec_before_init`).
-/

namespace Sys2Proof

/-- The flag of B is bit 0 of the word (R95). -/
theorem flagB_eq (w : Word) : flagB w = w.getLsbD 0 := by
  simp [flagB, fieldB]

/-- The flag of D is bit 16 of the word (R95). -/
theorem flagD_eq (w : Word) : flagD w = w.getLsbD 16 := by
  simp [flagD, fieldD]

end Sys2Proof

namespace Sys2Proof.Machine

/-! ## The gate and the answers -/

section

variable (s : State) (v : Word)

/-- Before INIT every command but NOP and INIT is rejected (R241, R243). -/
theorem exec_before_init {i : Instr} (hn : i ≠ .nop) (hi : i ≠ .init) (h : s.init = false) :
    exec i s = .next { s with rej := true } := by
  rw [exec_eq_gated hn hi, gated_before_init s _ h, reject_eq]

/-- A valid query writes RESULT alone (R30). -/
theorem answer_true_eq : answer true v s = { s with result := v } := rfl

/-- A query with an invalid index writes RESULT and sets REJ (R262). -/
theorem answer_false_eq : answer false v s = { s with result := v, rej := true } := rfl

/-- A one-bit answer, zero-extended. -/
theorem ofBool_setWidth (b : Bool) : (BitVec.ofBool b).setWidth 32 = if b then 1 else 0 := by
  cases b <;> rfl

end

/-! ## Digits (R112) -/

section

variable (c : Config) {n : Nat}

theorem digitGlyph_of_lt (h : n < 10) : digitGlyph c n = c.digitGlyph[n] := by
  simp [digitGlyph, h]

theorem digitGlyph_of_ge (h : 10 ≤ n) : digitGlyph c n = blank := by
  simp [digitGlyph, h]

end

/-- Settles O31: what `effectOf` answers is the table's entry, by `digitGlyph_of_lt` and `digitGlyph_of_ge`. -/
theorem glyphDigitAnswersTheTable : Obligations.GlyphDigitAnswersTheTable := by
  refine ⟨fun w h => decode_of_opcode (i := .glyphDigit 0) h, fun n s => ⟨fun hi h => ?_, fun hi h => ?_, ?_⟩⟩
  · rw [exec_of_init _ hi, effectOf, digitGlyph_of_lt _ h, answer_true_eq]
  · rw [exec_of_init _ hi, effectOf, digitGlyph_of_ge _ h, answer_true_eq]
    rfl
  · exact exec_before_init s nofun nofun

/-! ## Fixed glyphs and inversion (R132, R133, R136) -/

theorem invertByte_eq (b : Byte) : invertByte b = 255 - b := by
  unfold invertByte
  bv_omega

/-- Settles O34: the effects read neither HAS_DP nor POL. -/
theorem fixedGlyphsAndInversion : Obligations.FixedGlyphsAndInversion := by
  refine ⟨fun w => ⟨fun h => ?_, fun h => ?_, fun h => ?_⟩, fun s hi => ⟨?_, ?_, fun b => ?_⟩,
    fun s hi => ⟨?_, ?_, fun b => ?_⟩⟩
  · exact decode_of_opcode (i := .glyphMinus) h
  · exact decode_of_opcode (i := .glyphDot) h
  · exact decode_of_opcode (i := .invert 0) h
  · exact exec_of_init .glyphMinus hi
  · exact exec_of_init .glyphDot hi
  · rw [exec_of_init _ hi, effectOf, invertByte_eq, answer_true_eq]
  all_goals exact exec_before_init s nofun nofun hi

/-! ## Segment bits (R120 to R122) -/

section

variable (s : State) (b : Byte) {k : Nat}

theorem segmentActive_of_valid (h : segValid s k = true) : segmentActive s b k = b.getLsbD k := by
  rw [segmentActive, h, Bool.true_and]

theorem segmentActive_of_invalid (h : segValid s k = false) : segmentActive s b k = false := by
  rw [segmentActive, h, Bool.false_and]

/-- What setSegment wrote is read back (R122). -/
theorem segmentActive_setSegment (on : Bool) (h : segValid s k = true) :
    segmentActive s (setSegment s b k on) k = on := by
  rw [segmentActive_of_valid s _ h, setSegment_getLsbD s b on h, if_pos rfl]

/-- An index that is not valid by R93 fails the check. -/
theorem segValid_eq_false (h : ¬ (k < 7 ∨ (k = 7 ∧ s.hasDp = true))) : segValid s k = false :=
  Bool.eq_false_iff.2 fun hv => h ((segValid_iff s k).1 hv)

end

/-- Settles O36: `segmentActive_setSegment` for a valid index, the sentinel for any other. -/
theorem segmentRoundTrip : Obligations.SegmentRoundTrip := by
  refine fun s b k => ⟨fun h => ?_, fun h => segmentActive_of_invalid s b (segValid_eq_false s h)⟩
  have hv : segValid s k = true := (segValid_iff s k).2 h
  exact ⟨segmentActive_of_valid s b hv, fun on => segmentActive_setSegment s b on hv⟩

/-- Settles O35: for a valid index the bits of `setSegment` and the bit that `segmentActive` reads, with REJ left; for an
invalid one the byte itself and the sentinel, with REJ set. -/
theorem segSetAndSegTestAnswer : Obligations.SegSetAndSegTestAnswer := by
  refine ⟨fun w => ⟨fun h => ?_, fun h => ?_⟩, fun s b k on hi => ⟨fun hk => ?_, fun hk => ?_⟩, fun s b k on hi => ?_⟩
  · rw [← flagD_eq]
    exact decode_of_opcode (i := .segSet 0 0 false) h
  · exact decode_of_opcode (i := .segTest 0 0) h
  · have hv : segValid s k = true := (segValid_iff s k).2 hk
    have hbit := setSegment_getLsbD s b on hv
    refine ⟨⟨setSegment s b k on, ?_, by rw [hbit, if_pos rfl], fun j hj => by rw [hbit, if_neg hj]⟩, ?_⟩
    · rw [exec_of_init _ hi, effectOf, hv, answer_true_eq]
    · rw [exec_of_init _ hi, effectOf, hv, answer_true_eq, segmentActive_of_valid s b hv, ofBool_setWidth]
  · have hv : segValid s k = false := segValid_eq_false s hk
    constructor
    · rw [exec_of_init _ hi, effectOf, hv, answer_false_eq, setSegment_invalid s b on hv]
    · rw [exec_of_init _ hi, effectOf, hv, answer_false_eq, segmentActive_of_invalid s b hv]
      rfl
  · exact ⟨exec_before_init s nofun nofun hi, exec_before_init s nofun nofun hi⟩

/-! ## Range (R124, R137) -/

/-- Settles O37: the answer is the check, which is R124's bounds (`valueInRange_iff`). -/
theorem inRangeAnswersTheBounds : Obligations.InRangeAnswersTheBounds := by
  refine ⟨fun w h => decode_of_opcode (i := .inRange) h, fun s hi => ?_, fun s => exec_before_init s nofun nofun⟩
  rw [exec_of_init _ hi, effectOf, answer_true_eq, if_congr (valueInRange_iff _ _) rfl rfl]
  rfl

end Sys2Proof.Machine
end

section
/-!
PROOFS. The character table (spec/40_glyph_encoder.md R114 to R118, R131): `charGlyph` has one equation per kind of code,
a letter of either case, a digit, a punctuation code of R115, any other.
-/

namespace Sys2Proof.Machine

/-! ## The kinds of codes -/

/-- A letter code of either case, or a digit code (R117). -/
abbrev isAlnum (c : Byte) : Prop :=
  (0x41 ≤ c.toNat ∧ c.toNat ≤ 0x5A) ∨ (0x61 ≤ c.toNat ∧ c.toNat ≤ 0x7A) ∨ (0x30 ≤ c.toNat ∧ c.toNat ≤ 0x39)

/-- No punctuation code is a letter or a digit (R115). -/
theorem not_isAlnum_of_mem_punctCodes {c : Byte} (h : c ∈ punctCodes) : ¬ isAlnum c := by
  have all : (punctCodes.all fun c => ¬ isAlnum c) = true := by decide
  exact of_decide_eq_true (List.all_eq_true.1 all c h)

/-- The codes of R115 are distinct: a code is found at its own index. -/
theorem idxOf_punctCodes {c : Byte} {p : Nat} (h : punctCodes[p]? = some c) : punctCodes.idxOf? c = some p := by
  have own : ∀ q : Fin 24, punctCodes.idxOf? (punctCodes.getD q.val 0) = some q.val := by decide
  obtain ⟨hp, _⟩ := List.getElem?_eq_some_iff.1 h
  simpa [List.getD, h] using own ⟨p, hp⟩

section

variable (s : State) {c : Byte}

/-- Both cases of letter k have its glyph (R117, R118). -/
theorem charGlyph_letter {k : Nat} (hk : k < 26) (h : c.toNat = 0x41 + k ∨ c.toNat = 0x61 + k) :
    charGlyph s c = letterGlyph s.cfg k := by
  rcases h with h | h
  · have hu : 0x41 ≤ c.toNat ∧ c.toNat ≤ 0x5A := by omega
    simp only [charGlyph, if_pos hu]
    rw [h, Nat.add_sub_cancel_left]
  · have hu : ¬ (0x41 ≤ c.toNat ∧ c.toNat ≤ 0x5A) := by omega
    have hl : 0x61 ≤ c.toNat ∧ c.toNat ≤ 0x7A := by omega
    simp only [charGlyph, if_neg hu, if_pos hl]
    rw [h, Nat.add_sub_cancel_left]

/-- A digit's code has the digit's glyph (R117). -/
theorem charGlyph_digit {n : Nat} (hn : n < 10) (h : c.toNat = 0x30 + n) : charGlyph s c = digitGlyph s.cfg n := by
  have hu : ¬ (0x41 ≤ c.toNat ∧ c.toNat ≤ 0x5A) := by omega
  have hl : ¬ (0x61 ≤ c.toNat ∧ c.toNat ≤ 0x7A) := by omega
  have hd : 0x30 ≤ c.toNat ∧ c.toNat ≤ 0x39 := by omega
  simp only [charGlyph, if_neg hu, if_neg hl, if_pos hd]
  rw [h, Nat.add_sub_cancel_left]

/-- Any other code is looked up in the punctuation codes (R117). -/
theorem charGlyph_of_not_isAlnum (h : ¬ isAlnum c) :
    charGlyph s c = ((punctCodes.idxOf? c).map (punctGlyph s.cfg)).getD s.unkGlyph := by
  simp only [isAlnum, not_or] at h
  obtain ⟨hu, hl, hd⟩ := h
  simp only [charGlyph, if_neg hu, if_neg hl, if_neg hd]
  cases punctCodes.idxOf? c <;> rfl

/-- The punctuation code at index p has entry p (R115, R117). -/
theorem charGlyph_punct {p : Nat} (h : punctCodes[p]? = some c) : charGlyph s c = punctGlyph s.cfg p := by
  rw [charGlyph_of_not_isAlnum s (not_isAlnum_of_mem_punctCodes (List.mem_of_getElem? h)), idxOf_punctCodes h]
  rfl

/-- A code outside the set has the unidentified-character glyph (R117). -/
theorem charGlyph_unknown (ha : ¬ isAlnum c) (hp : c ∉ punctCodes) : charGlyph s c = s.unkGlyph := by
  rw [charGlyph_of_not_isAlnum s ha, List.idxOf?_eq_none_iff.2 hp]
  rfl

end

/-- Settles O33: both codes are letter k of `charGlyph_letter`. -/
theorem caseFoldingKeepsTheGlyph : Obligations.CaseFoldingKeepsTheGlyph := by
  intro s c hlo hhi
  have hk : c.toNat - 0x41 < 26 := by omega
  rw [charGlyph_letter s hk (.inl (by omega)), charGlyph_letter s hk (.inr (by bv_omega))]

/-! ## The entries of the tables -/

section

variable (c : Config)

theorem letterGlyph_eq (k : Fin 26) : letterGlyph c k = c.letterGlyph[k] := by
  simp [letterGlyph]

/-- The entries from index 2 to 22 are the open ones (R116). -/
theorem punctGlyph_open (p : Fin 21) : punctGlyph c (p + 2) = c.punctOpen[p] := by
  simp [punctGlyph, show p.val ≠ 21 by omega]

end

/-- The 21 open codes of R115, in the order of their indices 2 to 22. -/
theorem punctCodes_open (p : Fin 21) :
    ([0x21, 0x3F, 0x28, 0x29, 0x5B, 0x5D, 0x2F, 0x5C, 0x2A, 0xB0, 0x22, 0x27, 0x2B, 0x5F, 0x3A, 0x3B, 0x3D,
      0x3E, 0x3C, 0x5E, 0x2C] : List Byte).getD p.val 0 ∈ punctCodes[p.val + 2]? := by
  revert p
  decide

/-- The codes that R117 lists as outside the set. -/
abbrev isUnidentified (c : Byte) : Prop :=
  c.toNat < 0x20 ∨ c = 0x23 ∨ c = 0x24 ∨ c = 0x25 ∨ c = 0x26 ∨ c = 0x40 ∨ c = 0x60 ∨ c = 0x7B ∨ c = 0x7C ∨ c = 0x7D ∨
    c = 0x7E ∨ c = 0x7F ∨ (0x80 ≤ c.toNat ∧ c ≠ 0xB0)

theorem not_isAlnum_of_isUnidentified {c : Byte} (h : isUnidentified c) : ¬ isAlnum c := by
  unfold isUnidentified isAlnum at *
  bv_omega

theorem not_mem_punctCodes_of_isUnidentified {c : Byte} (h : isUnidentified c) : c ∉ punctCodes := by
  have all : (punctCodes.all fun c => ¬ isUnidentified c) = true := by decide
  exact fun hc => of_decide_eq_true (List.all_eq_true.1 all c hc) h

/-- Settles O32: the glyph is `charGlyph s c`, and each clause is the equation of its kind of code. -/
theorem glyphCharAnswersTheTables : Obligations.GlyphCharAnswersTheTables := by
  refine ⟨fun w h => decode_of_opcode (i := .glyphChar 0) h, fun c s => exec_before_init s nofun nofun,
    fun c s hi => ⟨charGlyph s c, exec_of_init (.glyphChar c) hi, fun k h => ?_, fun n h => ?_, fun h => ?_, fun h => ?_,
      fun h => ?_, fun p h => ?_, fun h => ?_⟩⟩
  · rw [charGlyph_letter s k.isLt h, letterGlyph_eq]
  · rw [charGlyph_digit s n.isLt h, digitGlyph_of_lt _ n.isLt]
    rfl
  · exact charGlyph_punct s (p := 0) (h ▸ rfl)
  · exact charGlyph_punct s (p := 1) (h ▸ rfl)
  · exact charGlyph_punct s (p := 23) (h ▸ rfl)
  · rw [charGlyph_punct s (h ▸ punctCodes_open p), punctGlyph_open]
  · have hu : isUnidentified c := h
    exact charGlyph_unknown s (not_isAlnum_of_isUnidentified hu) (not_mem_punctCodes_of_isUnidentified hu)

end Sys2Proof.Machine
end

section
/-!
PROOFS. SET_INT (spec/40_glyph_encoder.md R124 to R129, spec/41_frame_buffer.md R157): what it shows, what it rejects, and
that what it shows can be read back. The integer renderer is described by the decimal digits of the magnitude alone, so its
facts come first, for every value and display length.
-/

namespace Sys2Proof.Machine

/-! ## Decimal digits (R125) -/

section

variable {a b : Nat}

/-- Digits above the magnitude are 0. -/
theorem decimalDigit_of_lt {i : Nat} (h : a < 10 ^ i) : decimalDigit a i = 0 := by
  rw [decimalDigit, Nat.div_eq_of_lt h, Nat.zero_mod]

/-- A magnitude with a nonzero digit at i is at least 10^i. -/
theorem le_of_decimalDigit_ne_zero {i : Nat} (h : decimalDigit a i ≠ 0) : 10 ^ i ≤ a :=
  Nat.le_of_not_lt fun hlt => h (decimalDigit_of_lt hlt)

/-- A magnitude below 10^(i+1) whose digit i is 0 is below 10^i. -/
theorem lt_of_decimalDigit_eq_zero {i : Nat} (hlt : a < 10 ^ (i + 1)) (h : decimalDigit a i = 0) : a < 10 ^ i := by
  have hq : a / 10 ^ i < 10 := Nat.div_lt_of_lt_mul (by rwa [Nat.pow_succ] at hlt)
  rw [decimalDigit, Nat.mod_eq_of_lt hq] at h
  exact Nat.lt_of_div_eq_zero (by positivity) h

/-- The first L digits determine a magnitude below 10^L. -/
theorem eq_of_decimalDigit_eq {L : Nat} (ha : a < 10 ^ L) (hb : b < 10 ^ L)
    (h : ∀ i < L, decimalDigit a i = decimalDigit b i) : a = b := by
  have hmod : ∀ k ≤ L, a % 10 ^ k = b % 10 ^ k := by
    intro k hk
    induction k with
    | zero => simp [Nat.mod_one]
    | succ k ih =>
      have hd : a / 10 ^ k % 10 = b / 10 ^ k % 10 := h k hk
      rw [Nat.mod_pow_succ, Nat.mod_pow_succ, hd, ih (by omega)]
  simpa only [Nat.mod_eq_of_lt ha, Nat.mod_eq_of_lt hb] using hmod L le_rfl

/-! ## The most significant digit (R126) -/

theorem topDigit_zero (L : Nat) : topDigit 0 L = 0 := by
  induction L with
  | zero => rfl
  | succ L ih => simp [topDigit, decimalDigit, ih]

theorem topDigit_lt {L : Nat} (h : 1 ≤ L) : topDigit a L < L := by
  induction L with
  | zero => omega
  | succ L ih =>
    rw [topDigit]
    split
    · omega
    · cases L with
      | zero => simp [topDigit]
      | succ L => exact Nat.lt_succ_of_lt (ih (by omega))

/-- Every digit of the magnitude stands at m or below. -/
theorem lt_pow_topDigit_succ {L : Nat} (h : a < 10 ^ L) : a < 10 ^ (topDigit a L + 1) := by
  induction L with
  | zero => exact h.trans (by simp [topDigit])
  | succ L ih =>
    rw [topDigit]
    split
    · exact h
    · next hd => exact ih (lt_of_decimalDigit_eq_zero h (not_not.1 hd))

/-- m is the position of a nonzero digit, unless the magnitude is 0. -/
theorem decimalDigit_topDigit_ne_zero {L : Nat} (h : a < 10 ^ L) (h0 : a ≠ 0) : decimalDigit a (topDigit a L) ≠ 0 := by
  induction L with
  | zero => exact absurd (Nat.lt_one_iff.1 h) h0
  | succ L ih =>
    rw [topDigit]
    split
    · next hd => exact hd
    · next hd => exact ih (lt_of_decimalDigit_eq_zero h (not_not.1 hd))

/-! ## The place of the minus sign (R126, R127) -/

/-- A magnitude with a free leftmost digit has room for the sign left of its most significant digit. -/
theorem topDigit_succ_lt {L : Nat} (h : a < 10 ^ (L - 1)) (h0 : a ≠ 0) : topDigit a L + 1 < L := by
  have hL : a < 10 ^ L := h.trans_le (Nat.pow_le_pow_right (by omega) (by omega))
  have hpow : 10 ^ topDigit a L < 10 ^ (L - 1) :=
    (le_of_decimalDigit_ne_zero (decimalDigit_topDigit_ne_zero hL h0)).trans_lt h
  have := (Nat.pow_lt_pow_iff_right (by omega)).1 hpow
  omega

/-- The sign of such a magnitude stands inside the display, where R126 and R127 put it. -/
theorem minusPlace_eq {L : Nat} (h : a < 10 ^ (L - 1)) (h0 : a ≠ 0) (lz : Bool) :
    minusPlace a L lz = if lz then L - 1 else topDigit a L + 1 := by
  have := topDigit_succ_lt h h0
  rw [minusPlace, Nat.min_eq_left (by omega)]

theorem minusPlace_lt {L : Nat} (h : a < 10 ^ (L - 1)) (h0 : a ≠ 0) (lz : Bool) : minusPlace a L lz < L := by
  have := topDigit_succ_lt h h0
  rw [minusPlace_eq h h0]
  split <;> omega

/-- The sign covers no significant digit (R128). -/
theorem decimalDigit_minusPlace {L : Nat} (h : a < 10 ^ (L - 1)) (h0 : a ≠ 0) (lz : Bool) :
    decimalDigit a (minusPlace a L lz) = 0 := by
  have hL : a < 10 ^ L := h.trans_le (Nat.pow_le_pow_right (by omega) (by omega))
  rw [minusPlace_eq h h0]
  split
  · exact decimalDigit_of_lt h
  · exact decimalDigit_of_lt (lt_pow_topDigit_succ hL)

end

/-! ## Values in range (R124) -/

section

variable {v : Int} {L : Nat} (h : valueInRange v L = true)
include h

/-- The magnitude of a negative value in range leaves the leftmost digit free. -/
theorem natAbs_lt_of_neg (hneg : v < 0) : v.natAbs < 10 ^ (L - 1) := by
  obtain ⟨hlo, _⟩ := (valueInRange_iff v L).1 h
  zify
  rw [abs_of_neg hneg]
  omega

/-- The magnitude of a value in range has at most L digits. -/
theorem natAbs_lt_of_valueInRange : v.natAbs < 10 ^ L := by
  by_cases hneg : v < 0
  · exact (natAbs_lt_of_neg h hneg).trans_le (Nat.pow_le_pow_right (by omega) (by omega))
  · obtain ⟨_, hhi⟩ := (valueInRange_iff v L).1 h
    zify
    rw [abs_of_nonneg (by omega)]
    omega

end

/-! ## The command (R157) -/

section

variable {s : State} (lz : Bool)

/-- In range, SET_INT writes the rendered value over the display. -/
theorem exec_setInt_of_inRange (hi : s.init = true) (h : valueInRange (argInt s) s.len = true) :
    exec (.setInt lz) s = .next (writeBuffer (encodedInteger s.cfg (argInt s) s.len lz) s) := by
  rw [exec_of_init _ hi, effectOf, if_pos h]

/-- Out of range, SET_INT rejects. -/
theorem exec_setInt_of_outOfRange (hi : s.init = true) (h : valueInRange (argInt s) s.len ≠ true) :
    exec (.setInt lz) s = .next { s with rej := true } := by
  rw [exec_of_init _ hi, effectOf, if_neg h, reject_eq]

/-- A whole-buffer write reaches every byte of the display. -/
theorem fbAt_writeBuffer_of_lt (hs : Sized s) (f : Nat → Byte) {i : Nat} (hi : i < s.len) :
    fbAt (writeBuffer f s) i = f i := by
  obtain ⟨⟨hfb, _⟩, hlen⟩ := hs
  rw [fbAt_writeBuffer, if_pos (by omega), if_pos hi]

end

/-- Settles O41: the check is R124's bounds (`valueInRange_iff`). -/
theorem setIntRejectsOutOfRange : Obligations.SetIntRejectsOutOfRange := by
  refine ⟨fun w h => ?_, fun s lz => ⟨fun hi hout => ?_, exec_before_init s nofun nofun⟩⟩
  · rw [← flagB_eq]
    exact decode_of_opcode (i := .setInt false) h
  · exact exec_setInt_of_outOfRange lz hi fun h => hout ((valueInRange_iff _ _).1 h)

/-- The rendered byte i, with the sign's place written out for the negative values, the only ones that have one. -/
theorem encodedInteger_eq {c : Config} {v : Int} {L : Nat} (h : valueInRange v L = true) (lz : Bool) (i : Nat) :
    encodedInteger c v L lz i =
      if v < 0 ∧ i = (if lz then L - 1 else topDigit v.natAbs L + 1) then minusGlyph
      else renderedDigit c v.natAbs L lz i := by
  by_cases hneg : v < 0
  · rw [encodedInteger, minusPlace_eq (natAbs_lt_of_neg h hneg) (by omega)]
  · simp only [encodedInteger, hneg, false_and]

/-- Settles O40: m is `topDigit`, and the bytes of the display are those of `encodedInteger`. -/
theorem setIntShowsTheValue : Obligations.SetIntShowsTheValue := by
  intro s lz hs hpos hi hlo hhi
  have hin : valueInRange (argInt s) s.len = true := (valueInRange_iff _ _).2 ⟨hlo, hhi⟩
  have habs : s.arg.toInt.natAbs < 10 ^ s.len := natAbs_lt_of_valueInRange hin
  obtain ⟨⟨hfb, _⟩, hrest⟩ := keepsBeyond_writeBuffer s (encodedInteger s.cfg (argInt s) s.len lz)
  refine ⟨_, topDigit s.arg.toInt.natAbs s.len, exec_setInt_of_inRange lz hi hin, rfl, hfb, fun a ha => (hrest a ha).1,
    topDigit_lt hpos, fun h0 => ?_, fun h0 => ⟨?_, lt_pow_topDigit_succ habs⟩, fun hneg => ?_, fun a ha => ?_⟩
  · rw [h0]
    exact topDigit_zero s.len
  · exact decimalDigit_topDigit_ne_zero habs (by omega)
  · exact topDigit_succ_lt (natAbs_lt_of_neg hin hneg) (by omega)
  · rw [fbAt_writeBuffer_of_lt hs _ ha, encodedInteger_eq hin]
    rfl

/-! ## Reading a display back -/

/-- The digit that a byte of the display shows under the default table (R113), written once for proofs: 0 for a blank or a
minus sign. -/
def shownDigit (b : Byte) : Nat := (canonicalDigitGlyph.toList.idxOf? b).getD 0

/-- The patterns of the default table are distinct, and none is the minus sign (R113). -/
theorem shownDigit_canonicalDigitGlyph (k : Fin 10) :
    shownDigit canonicalDigitGlyph[k] = k ∧ canonicalDigitGlyph[k] ≠ minusGlyph := by
  revert k
  decide

section

variable {c : Config} (hc : c.digitGlyph = canonicalDigitGlyph)
include hc

theorem shownDigit_digitGlyph {n : Nat} (h : n < 10) :
    shownDigit (digitGlyph c n) = n ∧ digitGlyph c n ≠ minusGlyph := by
  simp only [digitGlyph_of_lt c h, hc]
  exact shownDigit_canonicalDigitGlyph ⟨n, h⟩

/-- A place that shows a digit or a suppressed zero gives the digit back, and is no minus sign. -/
theorem shownDigit_renderedDigit {a L : Nat} (h : a < 10 ^ L) (lz : Bool) (i : Nat) :
    shownDigit (renderedDigit c a L lz i) = decimalDigit a i ∧ renderedDigit c a L lz i ≠ minusGlyph := by
  rw [renderedDigit]
  split
  · exact shownDigit_digitGlyph hc (Nat.mod_lt _ (by omega))
  · next hi =>
    have hlt : a < 10 ^ i :=
      (lt_pow_topDigit_succ h).trans_le (Nat.pow_le_pow_right (by omega) (by omega))
    rw [decimalDigit_of_lt hlt]
    decide

section

variable {v : Int} {L : Nat} (h : valueInRange v L = true) (lz : Bool)
include h

/-- Every byte of a rendered value gives the digit of the magnitude back: the sign stands where the digit is 0. -/
theorem shownDigit_encodedInteger (i : Nat) :
    shownDigit (encodedInteger c v L lz i) = decimalDigit v.natAbs i := by
  rw [encodedInteger]
  split
  · next hm =>
    obtain ⟨hneg, rfl⟩ := hm
    rw [decimalDigit_minusPlace (natAbs_lt_of_neg h hneg) (by omega)]
    rfl
  · exact (shownDigit_renderedDigit hc (natAbs_lt_of_valueInRange h) lz i).1

/-- A value is negative exactly when its display shows a minus sign. -/
theorem neg_iff_minusGlyph_shown : v < 0 ↔ ∃ i < L, encodedInteger c v L lz i = minusGlyph := by
  constructor
  · intro hneg
    exact ⟨_, minusPlace_lt (natAbs_lt_of_neg h hneg) (by omega) lz, if_pos ⟨hneg, rfl⟩⟩
  · rintro ⟨i, _, hi⟩
    by_contra hneg
    rw [encodedInteger, if_neg fun hm => hneg hm.1] at hi
    exact (shownDigit_renderedDigit hc (natAbs_lt_of_valueInRange h) lz i).2 hi

end

/-- A display determines the value it was rendered from: its bytes give the digits and the sign back. -/
theorem encodedInteger_injective {c' : Config} (hc' : c'.digitGlyph = canonicalDigitGlyph) {v v' : Int} {L : Nat}
    (h : valueInRange v L = true) (h' : valueInRange v' L = true) (lz : Bool)
    (heq : ∀ i < L, encodedInteger c v L lz i = encodedInteger c' v' L lz i) : v = v' := by
  have habs : v.natAbs = v'.natAbs := by
    refine eq_of_decimalDigit_eq (natAbs_lt_of_valueInRange h) (natAbs_lt_of_valueInRange h') fun i hi => ?_
    rw [← shownDigit_encodedInteger hc h lz, heq i hi, shownDigit_encodedInteger hc' h' lz]
  have hsign : v < 0 ↔ v' < 0 := by
    rw [neg_iff_minusGlyph_shown hc h lz, neg_iff_minusGlyph_shown hc' h' lz]
    exact exists_congr fun i => and_congr_right fun hi => by rw [heq i hi]
  omega

end

/-- When SET_INT answers without REJ, the value was in range and is what the display shows. -/
theorem setInt_accepted {s t : State} {lz : Bool} (hs : Sized s) (hi : s.init = true) (h : exec (.setInt lz) s = .next t)
    (hrej : t.rej = false) :
    valueInRange (argInt s) s.len = true ∧
      ∀ a < s.len, fbAt t a = encodedInteger s.cfg (argInt s) s.len lz a := by
  by_cases hin : valueInRange (argInt s) s.len = true
  · rw [exec_setInt_of_inRange lz hi hin] at h
    cases h
    exact ⟨hin, fun a ha => fbAt_writeBuffer_of_lt hs _ ha⟩
  · rw [exec_setInt_of_outOfRange lz hi hin] at h
    cases h
    cases hrej

/-- Settles O42, by `encodedInteger_injective`. -/
theorem renderedIntegersAreDistinct : Obligations.RenderedIntegersAreDistinct := by
  intro s s' t t' lz hs hs' _ hlen hc hc' hi hi' _ _ ht ht' hrej hrej' hshown
  obtain ⟨hin, hfb⟩ := setInt_accepted hs hi ht hrej
  obtain ⟨hin', hfb'⟩ := setInt_accepted hs' hi' ht' hrej'
  rw [hlen] at hin' hfb'
  have hv : argInt s = argInt s' := by
    refine encodedInteger_injective hc hc' hin hin' lz fun a ha => ?_
    rw [← hfb a ha, hshown a ha, hfb' a ha]
  exact BitVec.eq_of_toInt_eq hv

end Sys2Proof.Machine
end

section
/-!
PROOFS. The frame-buffer commands (spec/41_frame_buffer.md R150 to R165). A command here makes one of three things of the
state after INIT: it writes one digit (`writeDigit`), it writes the display (`writeBuffer`), or it answers a query
(`answer`). What each of the three leaves is said once, in terms of the bytes of the display.
-/

namespace Sys2Proof.Machine

/-! ## One digit (R150) -/

section

variable {s : State} {d : Nat} (b : Byte)

theorem writeDigit_of_lt (hd : d < s.len) : writeDigit d b s = s.setFb (s.fb.set d b) := if_pos hd

theorem writeDigit_of_not_lt (hd : ¬ d < s.len) : writeDigit d b s = { s with rej := true } := if_neg hd

/-- A write of one frame-buffer entry stays in the frame buffer and keeps its size. -/
theorem writeDigit_frame (hd : d < s.len) :
    (writeDigit d b s).fb.length = s.fb.length ∧ writeDigit d b s = { s with fb := (writeDigit d b s).fb } := by
  rw [writeDigit_of_lt b hd]
  exact ⟨List.length_set, rfl⟩

/-- Digit d of the display after it was written. -/
theorem fbAt_writeDigit_self (hs : Sized s) (hd : d < s.len) : fbAt (writeDigit d b s) d = b := by
  obtain ⟨⟨hfb, _⟩, hlen⟩ := hs
  rw [writeDigit_of_lt b hd, fbAt_set, if_pos ⟨rfl, by omega⟩]

/-- The other entries after digit d was written. -/
theorem fbAt_writeDigit_of_ne (hd : d < s.len) {a : Nat} (ha : a ≠ d) : fbAt (writeDigit d b s) a = fbAt s a := by
  rw [writeDigit_of_lt b hd, fbAt_set, if_neg fun h => ha h.1]

end

/-- The table look-up with its out-of-range answer written out (R112). -/
theorem digitGlyph_eq_ite (c : Config) (n : Nat) : digitGlyph c n = if n ≤ 9 then digitGlyph c n else 0x00 := by
  split
  · rfl
  · exact digitGlyph_of_ge c (by omega)

/-- The three commands that replace one digit, and the byte each of them writes (R152 to R154). -/
theorem effectOf_eq_writeDigit {s : State} {d n : Nat} {c : Byte} {i : Instr} {v : Byte}
    (h : (i = .setByte d c ∧ v = c) ∨ (i = .setDigit d n ∧ v = if n ≤ 9 then digitGlyph s.cfg n else 0x00) ∨
      (i = .setChar d c ∧ v = charGlyph s c)) :
    i ≠ .nop ∧ i ≠ .init ∧ effectOf i s = writeDigit d v s := by
  rcases h with ⟨rfl, rfl⟩ | ⟨rfl, rfl⟩ | ⟨rfl, rfl⟩
  · exact ⟨nofun, nofun, rfl⟩
  · rw [← digitGlyph_eq_ite]
    exact ⟨nofun, nofun, rfl⟩
  · exact ⟨nofun, nofun, rfl⟩

/-- Settles O38: each of the three commands is a `writeDigit` behind the gate. -/
theorem singleDigitWrites : Obligations.SingleDigitWrites := by
  refine ⟨fun w => ⟨?_, ?_, ?_⟩, fun s d n c i v hs hiv => ?_⟩
  · exact decode_of_opcode (i := .setByte 0 0)
  · exact decode_of_opcode (i := .setDigit 0 0)
  · exact decode_of_opcode (i := .setChar 0 0)
  obtain ⟨hnop, hinit, heff⟩ := effectOf_eq_writeDigit hiv
  refine ⟨fun hi hd => ⟨writeDigit d v s, ?_, ?_⟩, fun hi hd => ?_, exec_before_init s hnop hinit⟩
  · rw [exec_of_init i hi, heff]
  · exact ⟨fbAt_writeDigit_self v hs hd, fun _ => fbAt_writeDigit_of_ne v hd, writeDigit_frame v hd⟩
  · rw [exec_of_init i hi, heff, writeDigit_of_not_lt v hd]

/-! ## One segment (R155) -/

section

variable {s : State} {d k : Nat} (on : Bool)

/-- With a valid segment index, SET_SEG is a write of the digit it read, one bit changed. -/
theorem exec_setSeg_of_valid (hi : s.init = true) (hk : segValid s k = true) :
    exec (.setSeg d k on) s = .next (writeDigit d (setSegment s (fbAt s d) k on) s) := by
  rw [exec_of_init _ hi, effectOf, if_pos hk]

/-- With an invalid segment or digit index, SET_SEG rejects. -/
theorem exec_setSeg_of_invalid (hi : s.init = true) (h : ¬ (d < s.len ∧ segValid s k = true)) :
    exec (.setSeg d k on) s = .next { s with rej := true } := by
  by_cases hk : segValid s k = true
  · rw [exec_setSeg_of_valid on hi hk, writeDigit_of_not_lt _ fun hd => h ⟨hd, hk⟩]
  · rw [exec_of_init _ hi, effectOf, if_neg hk, reject_eq]

end

/-- Settles O39: the digit written holds the bits of `setSegment` (`setSegment_getLsbD`). -/
theorem setSegWritesOneBit : Obligations.SetSegWritesOneBit := by
  refine ⟨fun w h => ?_, fun s d k on hs =>
    ⟨fun hi hd hk => ⟨_, exec_setSeg_of_valid on hi ((segValid_iff s k).2 hk), ?_⟩, fun hi hbad => ?_,
      exec_before_init s nofun nofun⟩⟩
  · rw [← flagB_eq]
    exact decode_of_opcode (i := .setSeg 0 0 false) h
  · have hbit := setSegment_getLsbD s (fbAt s d) on ((segValid_iff s k).2 hk)
    rw [fbAt_writeDigit_self _ hs hd]
    exact ⟨by rw [hbit, if_pos rfl], fun j hj => by rw [hbit, if_neg hj], fun _ => fbAt_writeDigit_of_ne _ hd,
      writeDigit_frame _ hd⟩
  · rw [← segValid_iff] at hbad
    exact exec_setSeg_of_invalid on hi hbad

/-! ## The getters (R162, R163) -/

section

variable {s : State} {d k : Nat}

theorem exec_getByte_of_valid (hi : s.init = true) (hd : d < s.len) :
    exec (.getByte d) s = .next { s with result := (fbAt s d).setWidth 32 } := by
  rw [exec_of_init _ hi, effectOf, (digitValid_iff s d).2 hd, answer_true_eq, if_pos rfl]

theorem exec_getByte_of_invalid (hi : s.init = true) (hd : ¬ d < s.len) :
    exec (.getByte d) s = .next { s with result := 0, rej := true } := by
  have hv : digitValid s d = false := Bool.eq_false_iff.2 fun h => hd ((digitValid_iff s d).1 h)
  rw [exec_of_init _ hi, effectOf, hv, answer_false_eq, if_neg Bool.false_ne_true]

/-- The check of GET_SEG is that of both its indices. -/
theorem digitValid_and_segValid_iff :
    (digitValid s d && segValid s k) = true ↔ d < s.len ∧ (k < 7 ∨ (k = 7 ∧ s.hasDp = true)) := by
  rw [Bool.and_eq_true, digitValid_iff, segValid_iff]

theorem exec_getSeg_of_valid (hi : s.init = true) (h : d < s.len ∧ (k < 7 ∨ (k = 7 ∧ s.hasDp = true))) :
    exec (.getSeg d k) s = .next { s with result := if (fbAt s d).getLsbD k then 1 else 0 } := by
  rw [exec_of_init _ hi, effectOf, digitValid_and_segValid_iff.2 h, answer_true_eq, if_pos rfl, ofBool_setWidth]

theorem exec_getSeg_of_invalid (hi : s.init = true) (h : ¬ (d < s.len ∧ (k < 7 ∨ (k = 7 ∧ s.hasDp = true)))) :
    exec (.getSeg d k) s = .next { s with result := 0, rej := true } := by
  have hv : (digitValid s d && segValid s k) = false :=
    Bool.eq_false_iff.2 fun hv => h (digitValid_and_segValid_iff.1 hv)
  rw [exec_of_init _ hi, effectOf, hv, answer_false_eq, if_neg Bool.false_ne_true]

end

/-- Settles O45, from the answer for valid indices and the one for invalid indices of each getter. -/
theorem gettersAnswer : Obligations.GettersAnswer := by
  refine ⟨fun w => ⟨?_, ?_⟩, fun s d k hi => ⟨?_, ?_, fun hd hk => ?_, ?_⟩, fun s d k hi => ⟨?_, ?_⟩⟩
  · exact decode_of_opcode (i := .getByte 0)
  · exact decode_of_opcode (i := .getSeg 0 0)
  · exact exec_getByte_of_valid hi
  · exact exec_getByte_of_invalid hi
  · exact exec_getSeg_of_valid hi ⟨hd, hk⟩
  · exact exec_getSeg_of_invalid hi
  all_goals exact exec_before_init s nofun nofun hi

/-! ## The whole display (R156) -/

/-- A write of the display stays in the frame buffer, keeps its size, and leaves the entries at DLEN and above. -/
theorem writeBuffer_frame (f : Nat → Byte) (s : State) :
    writeBuffer f s = { s with fb := (writeBuffer f s).fb } ∧ (writeBuffer f s).fb.length = s.fb.length ∧
      ∀ a, s.len ≤ a → fbAt (writeBuffer f s) a = fbAt s a := by
  obtain ⟨⟨hlength, _⟩, hbeyond⟩ := keepsBeyond_writeBuffer s f
  exact ⟨rfl, hlength, fun a ha => (hbeyond a ha).1⟩

/-- Settles O46: CLEAR writes blank over the display. -/
theorem clearBlanksTheDisplay : Obligations.ClearBlanksTheDisplay := by
  refine ⟨fun w => decode_of_opcode (i := .clear), fun s hs =>
    ⟨fun hi => ⟨_, exec_of_init .clear hi, ?_⟩, exec_before_init s nofun nofun⟩⟩
  obtain ⟨hframe, hlength, hbeyond⟩ := writeBuffer_frame (fun _ => blank) s
  exact ⟨hframe, hlength, fun a ha => fbAt_writeBuffer_of_lt hs _ ha, hbeyond⟩

/-! ## SHIFT (R160, R161) -/

section

variable {s : State} {k : Int}

/-- A byte whose source lies in the display is that of the source. -/
theorem shiftedByte_of_source {a j : Nat} (hj : j < s.len) (ha : (a : Int) = j + k) : shiftedByte s k a = fbAt s j := by
  have hsrc : (a : Int) - k = j := by omega
  rw [shiftedByte, hsrc, if_pos ⟨by omega, by omega⟩, Int.toNat_natCast]

/-- A byte whose source lies outside the display is blank. -/
theorem shiftedByte_of_outside {a : Nat} (ha : (a : Int) - k < 0 ∨ (s.len : Int) ≤ a - k) : shiftedByte s k a = blank :=
  if_neg (by omega)

/-- After INIT, SHIFT k writes the shifted bytes over the display. -/
theorem exec_shift_of_init (hi : s.init = true) :
    exec (.shift k) s = .next (writeBuffer (shiftedByte s k) s) := exec_of_init (.shift k) hi

end

/-- Settles O43, by the two equations of `shiftedByte`. -/
theorem shiftMovesTheDisplay : Obligations.ShiftMovesTheDisplay := by
  refine ⟨fun w => decode_of_opcode (i := .shift 0), fun s k hs =>
    ⟨fun hi => ⟨_, exec_shift_of_init hi, ?_⟩, exec_before_init s nofun nofun⟩⟩
  obtain ⟨hframe, hlength, hbeyond⟩ := writeBuffer_frame (shiftedByte s k) s
  refine ⟨hframe, hlength, hbeyond, fun a j ha hj hsrc => ?_, fun a ha hout => ?_⟩
  · rw [fbAt_writeBuffer_of_lt hs _ ha, shiftedByte_of_source hj hsrc]
  · rw [fbAt_writeBuffer_of_lt hs _ ha, shiftedByte_of_outside hout]
    rfl

/-- What SHIFT −k brings back to digit a after SHIFT k: the byte that SHIFT k had put at a + k, if that is a digit. -/
theorem shiftedByte_neg_writeBuffer {s : State} (hs : Sized s) (k : Int) {a : Nat} (ha : a < s.len) :
    shiftedByte (writeBuffer (shiftedByte s k) s) (-k) a =
      if 0 ≤ (a : Int) + k ∧ (a : Int) + k < s.len then fbAt s a else blank := by
  split
  · next hin =>
    obtain ⟨j, hj⟩ := Int.eq_ofNat_of_zero_le hin.1
    have hjlen : j < s.len := by omega
    calc shiftedByte (writeBuffer (shiftedByte s k) s) (-k) a
        = fbAt (writeBuffer (shiftedByte s k) s) j := shiftedByte_of_source hjlen (by omega)
      _ = shiftedByte s k j := fbAt_writeBuffer_of_lt hs _ hjlen
      _ = fbAt s a := shiftedByte_of_source ha hj.symm
  · next hout =>
    have hlen : (writeBuffer (shiftedByte s k) s).len = s.len := rfl
    exact shiftedByte_of_outside (by omega)

/-- Settles O44: the second shift reads what the first wrote (`shiftedByte_neg_writeBuffer`). -/
theorem shiftBackRestoresWhatStayed : Obligations.ShiftBackRestoresWhatStayed := by
  intro s t u k hs hi ht hu a ha
  rw [exec_shift_of_init hi] at ht
  cases ht
  rw [exec_shift_of_init ((writeBuffer_init _ s).trans hi)] at hu
  cases hu
  have hsized : Sized (writeBuffer (shiftedByte s k) s) := ⟨writeBuffer_wf hs.1 _, hs.2⟩
  rw [fbAt_writeBuffer_of_lt hsized _ ha, shiftedByte_neg_writeBuffer hs k ha]
  rfl

end Sys2Proof.Machine
end

section
/-!
PROOFS. The effects (spec/42_effects.md R180 to R188). EN_DIGIT and BLINK_DIGIT, and EN_ALL and BLINK_ALL, do the same with
one of the two flag arrays each, behind the lifecycle gate. The blink phase is the parity of the number of whole intervals
in NOW_MS.
-/

namespace Sys2Proof.Machine

/-! ## The blink phase (R186) -/

/-- The phase is on while an even number of whole intervals has passed. -/
theorem blinkOn_iff {iv : BitVec 16} (h : iv ≠ 0) (t : Word) : blinkOn iv t = true ↔ t.toNat / iv.toNat % 2 = 0 := by
  rw [blinkOn, decide_eq_true_eq, Nat.mul_comm, ← Nat.mod_mul_right_div_self, Nat.div_eq_zero_iff_lt (one_le_toNat h)]

/-- Settles O50: one interval more changes the parity of the whole intervals that have passed. -/
theorem blinkPhaseAlternates : Obligations.BlinkPhaseAlternates := by
  intro iv t hiv hwrap
  have hsum : (t + iv.setWidth 32).toNat = t.toNat + iv.toNat := by
    rw [BitVec.toNat_add_of_lt] <;> rw [BitVec.toNat_setWidth_of_le (by decide)]
    exact hwrap
  have hdiv : (t.toNat + iv.toNat) / iv.toNat = t.toNat / iv.toNat + 1 := Nat.add_div_right _ (one_le_toNat hiv)
  rw [Bool.eq_not, ne_eq, Bool.eq_iff_iff, blinkOn_iff hiv, blinkOn_iff hiv, hsum, hdiv]
  omega

/-! ## One flag (R180, R181) -/

section

variable {s : State} {d : Nat} (on : Bool)

theorem exec_enDigit_of_valid (hi : s.init = true) (hd : d < s.len) :
    exec (.enDigit d on) s = .next (s.setEn (s.en.set d on)) := by
  rw [exec_of_init _ hi, effectOf, if_pos ((digitValid_iff s d).2 hd)]

theorem exec_blinkDigit_of_valid (hi : s.init = true) (hd : d < s.len) :
    exec (.blinkDigit d on) s = .next (s.setBl (s.bl.set d on)) := by
  rw [exec_of_init _ hi, effectOf, if_pos ((digitValid_iff s d).2 hd)]

/-- Both commands reject an index at or above DLEN. -/
theorem exec_digitFlag_of_invalid {i : Instr} (h : i = .enDigit d on ∨ i = .blinkDigit d on) (hi : s.init = true)
    (hd : ¬ d < s.len) : exec i s = .next { s with rej := true } := by
  have hv : ¬ digitValid s d = true := fun h => hd ((digitValid_iff s d).1 h)
  rcases h with rfl | rfl <;> rw [exec_of_init _ hi, effectOf, if_neg hv, reject_eq]

end

/-- Settles O48: each command is a write of one flag array (`enAt_set`, `blAt_set`) behind the gate and the index check. -/
theorem digitFlagWrites : Obligations.DigitFlagWrites := by
  refine ⟨fun w => ?_, fun s d on ⟨⟨_, hen, hbl⟩, hlen⟩ => ⟨fun hi hd => ⟨?_, ?_⟩, fun hi hd => ⟨?_, ?_⟩,
    fun hi => ⟨exec_before_init s nofun nofun hi, exec_before_init s nofun nofun hi⟩⟩⟩
  · rw [← flagB_eq]
    exact ⟨decode_of_opcode (i := .enDigit 0 false), decode_of_opcode (i := .blinkDigit 0 false)⟩
  · exact ⟨_, exec_enDigit_of_valid on hi hd, by rw [enAt_set, if_pos ⟨rfl, by omega⟩],
      fun a ha => by rw [enAt_set, if_neg fun h => ha h.1], List.length_set, rfl⟩
  · exact ⟨_, exec_blinkDigit_of_valid on hi hd, by rw [blAt_set, if_pos ⟨rfl, by omega⟩],
      fun a ha => by rw [blAt_set, if_neg fun h => ha h.1], List.length_set, rfl⟩
  · exact exec_digitFlag_of_invalid on (.inl rfl) hi hd
  · exact exec_digitFlag_of_invalid on (.inr rfl) hi hd

/-! ## All flags of the display (R182, R183) -/

/-- Settles O49: each command is a write of the first DLEN entries of one flag array behind the gate; what such a write
leaves is said by `keepsBeyond_setEn_writeFirst` and `keepsBeyond_setBl_writeFirst`. -/
theorem globalFlagWrites : Obligations.GlobalFlagWrites := by
  refine ⟨fun w => ?_, fun s on ⟨⟨_, hen, hbl⟩, hlen⟩ => ⟨fun hi => ⟨?_, ?_⟩,
    fun hi => ⟨exec_before_init s nofun nofun hi, exec_before_init s nofun nofun hi⟩⟩⟩
  · rw [← flagB_eq]
    exact ⟨decode_of_opcode (i := .enAll false), decode_of_opcode (i := .blinkAll false)⟩
  · obtain ⟨⟨_, hsize, _⟩, hbeyond⟩ := keepsBeyond_setEn_writeFirst s fun _ => on
    exact ⟨_, exec_of_init (.enAll on) hi, fun a ha => by rw [effectOf, enAt_writeFirst, if_pos (by omega), if_pos ha],
      fun a ha => (hbeyond a ha).2.1, hsize, rfl⟩
  · obtain ⟨⟨_, _, hsize⟩, hbeyond⟩ := keepsBeyond_setBl_writeFirst s fun _ => on
    exact ⟨_, exec_of_init (.blinkAll on) hi, fun a ha => by rw [effectOf, blAt_writeFirst, if_pos (by omega), if_pos ha],
      fun a ha => (hbeyond a ha).2.2, hsize, rfl⟩

end Sys2Proof.Machine
end

section
/-!
PROOFS. The scan sequencer in one clock cycle (spec/43_scan_sequencer.md R200 to R210): what begins, what goes on and what
ends, and that an idle cycle moves nothing but the time base, the sequencer and its clear of pend.
-/

namespace Sys2Proof.Machine

/-! ## An idle cycle -/

/-- A host that has nothing planned, or plans an idle cycle, is idle. -/
theorem thisInput_idle {s : State} (h : s.inputs = [] ∨ ∃ rest, s.inputs = idleCycle :: rest) :
    thisInput s = idleCycle := by
  rcases h with h | ⟨_, h⟩
  · exact thisInput_nil h
  · exact thisInput_cons h

/-- Settles O13: an idle cycle commits no write of the bus. -/
theorem idleCycleMovesOnlyTimeAndSequencer : Obligations.IdleCycleMovesOnlyTimeAndSequencer := by
  intro s h
  have hthis : thisInput s = idleCycle := thisInput_idle h
  have hbus : busEffect (thisInput s).op (s.setPend false) = .next (s.setPend false) := by rw [hthis]; rfl
  have hpend : mergePend s false = (!passStarts s && s.pend) := mergePend_eq s false
  rw [step_of_busEffect (by rw [hthis]; rfl) hbus, hthis, ← hpend, commit_eq]
  rfl

/-! ## What begins -/

/-- Settles O51: the two answers of `nextEnabled`, each with what begins then. -/
theorem beginSlotTakesTheFirstEnabledDigit : Obligations.BeginSlotTakesTheFirstEnabledDigit := by
  refine fun s i => ⟨fun j hij hj hen hfirst => ?_, fun hnone => ?_⟩
  · exact beginSlot_slot (nextEnabled_eq_some.2 ⟨⟨hij, hen⟩, hj, fun k hkj hik => hfirst k hik hkj⟩)
  · exact beginSlot_gap (nextEnabled_eq_none.2 fun j hj hij => hnone j hij hj)

/-- What begins is never IDLE (R203). -/
theorem beginSlot_state_ne_idle (s : State) (i : Nat) : (beginSlot s i).state ≠ .idle := by
  cases h : nextEnabled s i with
  | none => rw [beginSlot_gap h]; nofun
  | some j => rw [beginSlot_slot h]; nofun

/-! ## The rows of R210 -/

section

variable {s : State}

/-- A slot or gap ends in the tick cycle with one tick left. -/
theorem dwellOver_iff : dwellOver s = true ↔ s.presc = s.cfg.clkPerMs - 1 ∧ s.seq.cnt = 1 := by
  rw [dwellOver, Bool.and_eq_true, tick_iff, beq_iff_eq]

/-- From IDLE a pass starts when CTRL.CONT or a request wants one, after INIT. -/
theorem passStarts_idle_iff (h : s.seq.state = .idle) :
    passStarts s = true ↔ s.init = true ∧ (s.cont = true ∨ s.pend = true) := by
  simp only [passStarts, h, passWanted, Bool.and_eq_true, Bool.or_eq_true]

theorem seqStep_idle (h : s.seq.state = .idle) : seqStep s = if passStarts s then beginSlot s 0 else s.seq := by
  rw [seqStep, h]

/-- A slot or gap whose count is not over counts down. -/
theorem seqStep_going_on (h : s.seq.state ≠ .idle) (hd : dwellOver s = false) : seqStep s = countDown s := by
  cases hs : s.seq.state with
  | idle => exact absurd hs h
  | slot => simp only [seqStep, hs, hd, Bool.false_eq_true, if_false]
  | gap => simp only [seqStep, hs, hd, Bool.false_eq_true, if_false]

/-- A slot whose count is over gives way to the next enabled digit, or the gap. -/
theorem seqStep_slot_over (h : s.seq.state = .slot) (hd : dwellOver s = true) :
    seqStep s = beginSlot s (s.seq.idx.toNat + 1) := by
  simp only [seqStep, h, hd, if_true]

/-- A gap whose count is over gives way to a new pass if one is wanted, or to IDLE. -/
theorem seqStep_gap_over (h : s.seq.state = .gap) (hd : dwellOver s = true) :
    seqStep s = if s.cont || s.pend then beginSlot s 0 else { SeqRegs.reset with latch := s.seq.latch } := by
  simp only [seqStep, h, hd, passStarts, passWanted, toIdle, Bool.true_and, if_true]

end

/-- Settles O52: the cycle does not end the slot, so it counts down and keeps the other registers. -/
theorem slotKeepsItsSample : Obligations.SlotKeepsItsSample := by
  intro s t hslot hr hgoing h
  have hd : dwellOver s = false := Bool.eq_false_iff.2 fun hd => hgoing (dwellOver_iff.1 hd)
  obtain ⟨hseq, _, _⟩ := step_clockPart hr h
  rw [hseq, seqStep_going_on (by rw [hslot]; nofun) hd]
  refine ⟨countDown_eq s, ?_⟩
  simp only [countDown, tick_iff]
  split <;> rfl

end Sys2Proof.Machine
end

section
/-!
PROOFS. REFRESH and INIT over a clock cycle (spec/44_lifecycle.md R242 to R246): the refresh request, which wins over the
sequencer's clear, and the phase, on which the pins depend (spec/43_scan_sequencer.md R210, R223).
-/

namespace Sys2Proof.Machine

/-! ## PEND -/

@[simp] theorem reject_pend (s : State) : (reject s).pend = s.pend := rfl
@[simp] theorem writeBuffer_pend (f : Nat → Byte) (s : State) : (writeBuffer f s).pend = s.pend := rfl
@[simp] theorem answer_pend (valid : Bool) (v : Word) (s : State) : (answer valid v s).pend = s.pend := by
  rw [answer_eq]
@[simp] theorem writeDigit_pend (d : Nat) (b : Byte) (s : State) : (writeDigit d b s).pend = s.pend := by
  rcases writeDigit_cases s d b with ⟨_, e⟩ | ⟨_, e⟩ <;> rw [e] <;> simp

/-- No effect but that of REFRESH writes PEND. -/
theorem effectOf_pend {i : Instr} (h : i ≠ .refresh) (s : State) : (effectOf i s).pend = s.pend := by
  cases i <;> simp only [effectOf]
  case refresh => exact absurd rfl h
  case setSeg | setInt | enDigit | blinkDigit => split <;> simp
  all_goals simp

/-- No command but REFRESH writes PEND (R245). -/
theorem exec_pend {i : Instr} {s t : State} (hi : i ≠ .refresh) (h : exec i s = .next t) : t.pend = s.pend := by
  rcases exec_cases h with ⟨_, rfl⟩ | ⟨_, ⟨_, rfl⟩ | ⟨_, rfl⟩ | ⟨_, _, rfl⟩⟩
  · exact effectOf_pend hi s
  all_goals rfl

/-- The bus operation writes no word of REFRESH to CMD. -/
def NoRefresh (op : BusOp) : Prop := ∀ v, op = .write 0x0 v → fieldOp v ≠ 0x03

/-- A bus operation that is no REFRESH leaves PEND. -/
theorem busEffect_pend {op : BusOp} {s t : State} (hop : NoRefresh op) (h : busEffect op s = .next t) :
    t.pend = s.pend := by
  rcases busEffect_cases h with ⟨w, i, rfl, hd, hx⟩ | hw
  · refine exec_pend (fun hi => hop w rfl ?_) hx
    rw [(opcode_of_decode hd).1, hi]
    rfl
  · rw [hw.frame]

/-- A cycle without reset and without REFRESH clears PEND when a pass starts in it, and keeps it otherwise (R246). -/
theorem step_pend {s t : State} (hr : (thisInput s).rst = false) (hop : NoRefresh (thisInput s).op)
    (h : step s = .next t) : t.pend = (!passStarts s && s.pend) := by
  obtain ⟨e, he, rfl⟩ := step_without_reset hr h
  have hpend : e.pend = false := busEffect_pend hop he
  rw [commit_pend, mergePend_eq, hpend, Bool.false_or]

/-! ## REFRESH -/

section

variable {w : Word} (s : State)

/-- Every word with OP 0x03 is REFRESH (R97). -/
theorem decode_refresh (h : fieldOp w = 0x03) : decode w = .ok .refresh := decode_of_opcode (i := .refresh) h

/-- After INIT, REFRESH requests a pass (R245). -/
theorem exec_refresh_of_init (h : s.init = true) : exec .refresh s = .next { s with pend := true } :=
  exec_of_init .refresh h

/-- The cycle that writes REFRESH after INIT requests a pass, whatever the sequencer does in it (R246). -/
theorem step_refresh {s : State} {rest : List HostCycle} (hi : s.init = true) (hw : fieldOp w = 0x03)
    (hin : s.inputs = writeCycle 0x0 w :: rest) :
    ∃ t, step s = .next t ∧ t.pend = true ∧ t.seq = seqStep s ∧ t.init = true := by
  have hthis : thisInput s = writeCycle addrCmd w := thisInput_cons hin
  have hbus : busEffect (thisInput s).op (s.setPend false) = .next ((s.setPend false).setPend true) := by
    rw [hthis]
    exact (busEffect_command (decode_refresh hw) _).trans (exec_refresh_of_init _ hi)
  exact ⟨_, step_of_busEffect (by rw [hthis]; rfl) hbus, by rw [commit_pend, mergePend_eq, setPend_pend, Bool.true_or],
    commit_seq .., hi⟩

end

/-! ## The IDLE row (R210) -/

section

variable {s t : State} (hidle : s.seq.state = .idle) (hr : (thisInput s).rst = false) (h : step s = .next t)
include hidle hr h

/-- From IDLE, when a pass is wanted after INIT, it starts and takes the request. -/
theorem step_idle_starts (hi : s.init = true) (hwant : s.cont = true ∨ s.pend = true) :
    t.seq = beginSlot s 0 ∧ (NoRefresh (thisInput s).op → t.pend = false) := by
  have hp : passStarts s = true := (passStarts_idle_iff hidle).2 ⟨hi, hwant⟩
  refine ⟨?_, fun hop => ?_⟩
  · rw [(step_clockPart hr h).1, seqStep_idle hidle, if_pos hp]
  · rw [step_pend hr hop h, hp, Bool.not_true, Bool.false_and]

/-- From IDLE, before INIT or when no pass is wanted, the sequencer stays and takes no request. -/
theorem step_idle_stays (hnot : ¬ (s.init = true ∧ (s.cont = true ∨ s.pend = true))) :
    t.seq = s.seq ∧ (NoRefresh (thisInput s).op → t.pend = s.pend) := by
  have hp : ¬ passStarts s = true := fun hp => hnot ((passStarts_idle_iff hidle).1 hp)
  refine ⟨?_, fun hop => ?_⟩
  · rw [(step_clockPart hr h).1, seqStep_idle hidle, if_neg hp]
  · rw [step_pend hr hop h, Bool.eq_false_iff.2 hp, Bool.not_false, Bool.true_and]

end

/-- Settles O18: the cycle that writes REFRESH leaves the request (`step_refresh`), and an idle sequencer takes it in the
next cycle (`step_idle_starts`). -/
theorem refreshRequestsOnePass : Obligations.RefreshRequestsOnePass := by
  refine ⟨fun w => decode_refresh, exec_refresh_of_init, fun s => exec_before_init s nofun nofun, ?_, ?_⟩
  · intro s w rest hi hw hin
    obtain ⟨t, ht, hpend, hseq, hinit⟩ := step_refresh hi hw hin
    refine ⟨t, ht, hpend, hseq, fun hidle hcont hnopend => ?_⟩
    have hstay : t.seq = s.seq := by
      refine (step_idle_stays hidle (by rw [thisInput_cons hin]; rfl) ht ?_).1
      rintro ⟨_, hc | hp⟩
      · rw [hcont] at hc; cases hc
      · rw [hnopend] at hp; cases hp
    refine ⟨hstay, fun u hr hop hu => ?_⟩
    obtain ⟨hbegin, hclear⟩ := step_idle_starts (by rw [hstay, hidle]) hr hu hinit (.inr hpend)
    exact ⟨hclear hop, by rw [hbegin]; exact beginSlot_state_ne_idle t 0, hbegin⟩
  · exact fun s t hidle hr h => ⟨step_idle_starts hidle hr h, step_idle_stays hidle hr h⟩

/-! ## The phase and the pins (R223, R242) -/

/-- A write that the host makes now is the first of the cycles it has planned. -/
theorem inputs_of_write {s : State} {a : BitVec 4} {w : Word} (hr : (thisInput s).rst = false)
    (hop : (thisInput s).op = .write a w) : s.inputs = writeCycle a w :: s.inputs.tail := by
  cases hin : s.inputs with
  | nil => rw [thisInput_nil hin] at hop; cases hop
  | cons c rest =>
    rw [thisInput_cons hin] at hr hop
    obtain ⟨rst, op⟩ := c
    subst hr hop
    rfl

/-- A command other than INIT leaves the phase as it is (R242). -/
theorem exec_init_eq {i : Instr} {s t : State} (hi : i ≠ .init) (h : exec i s = .next t) : t.init = s.init := by
  rcases exec_cases h with ⟨_, rfl⟩ | ⟨_, ⟨_, rfl⟩ | ⟨hi', _⟩ | ⟨_, _, rfl⟩⟩
  · exact effectOf_init i s
  · rfl
  · exact absurd hi' hi
  · rfl

/-- Only a cycle in which the host writes INIT leaves the configuration phase (R242, R267). -/
theorem step_init_false {s t : State} (hi : s.init = false) (h : step s = .next t)
    (hno : ∀ w rest, s.inputs = writeCycle 0x0 w :: rest → fieldOp w ≠ 0x01) : t.init = false := by
  rcases step_cases h with ⟨_, rfl⟩ | ⟨hr, e, he, _, rfl⟩
  · rfl
  · rw [commit_init]
    rcases busEffect_cases he with ⟨w, i, hop, hd, hx⟩ | hw
    · refine (exec_init_eq (fun hinit => hno w _ (inputs_of_write hr hop) ?_) hx).trans hi
      rw [(opcode_of_decode hd).1, hinit]
      rfl
    · rw [hw.frame]
      exact hi

/-- INIT leaves init 1, whichever phase it is written in (R242, R244). -/
theorem exec_init_next (s : State) : ∃ t, exec .init s = .next t ∧ t.init = true := by
  cases hi : s.init
  · exact ⟨_, by rw [exec, execInit, hi]; rfl, setInit_init s true⟩
  · exact ⟨_, exec_of_init .init hi, hi⟩

/-- A cycle in which the host writes INIT leaves init 1. -/
theorem step_init {s : State} {w : Word} {rest : List HostCycle} (hin : s.inputs = writeCycle 0x0 w :: rest)
    (hw : fieldOp w = 0x01) : ∃ t, step s = .next t ∧ t.init = true := by
  obtain ⟨e, hx, hi⟩ := exec_init_next (s.setPend false)
  have hthis : thisInput s = writeCycle addrCmd w := thisInput_cons hin
  have hbus : busEffect (thisInput s).op (s.setPend false) = .next e := by
    rw [hthis]
    exact (busEffect_command (decode_of_opcode (i := .init) hw) _).trans hx
  exact ⟨_, step_of_busEffect (by rw [hthis]; rfl) hbus, hi⟩

/-- Settles O60: out_en is init, which only INIT sets and only a reset clears. -/
theorem pinsAreReleasedUntilInit : Obligations.PinsAreReleasedUntilInit := by
  refine ⟨fun _ => rfl, fun s t => step_init_false, fun s w rest => step_init, fun s t hi hr h => ?_⟩
  exact (configurationIsFrozenAfterInit s t hi hr h).1

end Sys2Proof.Machine
end

section
/-!
PROOFS. The levels of the output ports (spec/43_scan_sequencer.md R220 to R222).
-/

namespace Sys2Proof.Machine

/-- Digit i is active exactly in a lit slot of its own (R220). -/
theorem digAct_iff {s : State} {i : Nat} :
    digAct s i = true ↔ s.seq.state = .slot ∧ s.seq.lit = true ∧ i = s.seq.idx.toNat := by
  rw [digAct, litNow, Bool.and_eq_true, Bool.and_eq_true, beq_iff_eq, beq_iff_eq, and_assoc]

/-- Settles O56: an active digit is the digit of the slot in progress. -/
theorem atMostOneDigitIsActive : Obligations.AtMostOneDigitIsActive := by
  refine fun s => ⟨fun i j hi hj => ?_, fun i => digAct_iff⟩
  obtain ⟨_, _, rfl⟩ := digAct_iff.1 hi
  obtain ⟨_, _, rfl⟩ := digAct_iff.1 hj
  rfl

/-- The digit of a slot in progress is below DLEN, so none at DLEN or above is active (R211). -/
theorem digAct_beyond {s : State} (hs : Inv s) {i : Nat} (hi : s.len ≤ i) : digAct s i = false := by
  refine Bool.eq_false_iff.2 fun hact => ?_
  obtain ⟨hslot, _, rfl⟩ := digAct_iff.1 hact
  have hfits := hs.seqFits
  simp only [SeqFits, hslot] at hfits
  omega

/-- Settles O57: the levels are those of `segOut` and `digDuty`, with the polarity written out. -/
theorem outputsFollowPolarity : Obligations.OutputsFollowPolarity := by
  refine fun s hs => ⟨fun k hk => segOutByte_getLsbD s hk, fun i => ?_, fun i => digAct_beyond hs⟩
  cases hp : s.pol <;> simp [digDuty, effDuty, hp]

end Sys2Proof.Machine
end

section
/-!
PROOFS. Runs of many cycles. `run_induct` is the one induction over a run of known length, `run_keeps` the one over a run
that is given; the time base after any number of cycles follows from its step (spec/43_scan_sequencer.md R200, R201).
-/

namespace Sys2Proof.Machine

/-! ## Runs -/

/-- No cycle stops the block (R248). -/
theorem exists_step (s : State) : ∃ t, step s = .next t := by
  cases hr : (thisInput s).rst
  · obtain ⟨e, he, _⟩ := busEffect_frame (thisInput s).op (s.setPend false)
    exact ⟨_, step_of_busEffect hr he⟩
  · exact ⟨_, step_reset hr⟩

theorem run_of_step {s u : State} (h : step s = .next u) (k : Nat) : run (k + 1) s = run k u := by
  rw [run, h]

/-- A run in two parts. -/
theorem run_add {m : Nat} {s t : State} (h : run m s = .next t) (n : Nat) : run (m + n) s = run n t := by
  induction m generalizing s with
  | zero =>
    injection h with h
    rw [h, Nat.zero_add]
  | succ m ih =>
    obtain ⟨u, hu⟩ := exists_step s
    rw [run_of_step hu] at h
    rw [Nat.succ_add_eq_add_succ, Nat.add_succ, run_of_step hu, ih h]

/-- A run of one cycle more. -/
theorem run_succ_of {k : Nat} {s t u : State} (h : run k s = .next t) (hu : step t = .next u) :
    run (k + 1) s = .next u := by
  rw [run_add h, run_of_step hu, run]

/-- What holds at first, and after each of the first n cycles if it held before it, holds after each of them. -/
theorem run_induct {P : Nat → State → Prop} {n : Nat} {s : State} (h0 : P 0 s)
    (hstep : ∀ k t u, k < n → P k t → step t = .next u → P (k + 1) u) {k : Nat} (hk : k ≤ n) :
    ∃ t, run k s = .next t ∧ P k t := by
  induction k with
  | zero => exact ⟨s, rfl, h0⟩
  | succ k ih =>
    obtain ⟨t, ht, hP⟩ := ih (by omega)
    obtain ⟨u, hu⟩ := exists_step t
    exact ⟨u, run_succ_of ht hu, hstep k t u hk hP hu⟩

/-- What every step keeps, a run keeps. -/
theorem run_keeps {P : State → Prop} {k : Nat} {s t : State} (h0 : P s)
    (hstep : ∀ t u, P t → step t = .next u → P u) (h : run k s = .next t) : P t := by
  obtain ⟨t', ht', hP⟩ := run_induct (P := fun _ => P) h0 (fun _ t u _ => hstep t u) (le_refl k)
  rw [h] at ht'
  injection ht' with ht'
  exact ht' ▸ hP

/-! ## A host that never resets -/

/-- A host that plans no reset makes none now. -/
theorem noReset_now {s : State} (h : NoReset s) : (thisInput s).rst = false := by
  cases hin : s.inputs with
  | nil => rw [thisInput_nil hin]; rfl
  | cons c rest =>
    rw [thisInput_cons hin]
    exact h c (by rw [hin]; exact List.mem_cons_self)

/-- It makes none later either. -/
theorem noReset_step {s t : State} (h : NoReset s) (hstep : step s = .next t) : NoReset t := by
  intro c hc
  rw [(parametersStayAndInputsAdvance s t hstep).2] at hc
  exact h c (List.mem_of_mem_tail hc)

/-! ## The time base -/

/-- The prescaler counts modulo CLK_PER_MS (R200). -/
theorem nextPresc_eq_mod {s : State} (h : s.presc < s.cfg.clkPerMs) :
    nextPresc s = (s.presc + 1) % s.cfg.clkPerMs := by
  rw [nextPresc]
  split
  · next ht =>
    rw [show s.presc + 1 = s.cfg.clkPerMs by rw [tick_iff] at ht; omega, Nat.mod_self]
  · next ht =>
    rw [tick_iff] at ht
    rw [Nat.mod_eq_of_lt (by omega)]

/-- A millisecond is counted when the prescaler wraps (R201). -/
theorem nextNow_eq_div {s : State} (h : s.presc < s.cfg.clkPerMs) :
    nextNow s = s.nowMs + BitVec.ofNat 32 ((s.presc + 1) / s.cfg.clkPerMs) := by
  rw [nextNow]
  split
  · next ht =>
    rw [show s.presc + 1 = s.cfg.clkPerMs by rw [tick_iff] at ht; omega, Nat.div_self (by omega)]
    rfl
  · next ht =>
    rw [tick_iff] at ht
    rw [Nat.div_eq_of_lt (by omega), BitVec.add_zero]

/-- After k cycles from s without a reset the time base has counted them. -/
structure TimeAfter (s : State) (k : Nat) (t : State) : Prop where
  /-- The invariant holds still. -/
  inv : Inv t
  /-- No reset is planned still. -/
  noReset : NoReset t
  /-- The parameters are the same. -/
  cfg : t.cfg = s.cfg
  /-- The prescaler has counted the cycles modulo CLK_PER_MS. -/
  presc : t.presc = (s.presc + k) % s.cfg.clkPerMs
  /-- NOW_MS has counted the wraps of the prescaler. -/
  nowMs : t.nowMs = s.nowMs + BitVec.ofNat 32 ((s.presc + k) / s.cfg.clkPerMs)

theorem timeAfter_zero {s : State} (hs : Inv s) (hr : NoReset s) : TimeAfter s 0 s where
  inv := hs
  noReset := hr
  cfg := rfl
  presc := (Nat.mod_eq_of_lt hs.prescBound).symm
  nowMs := by rw [Nat.add_zero, Nat.div_eq_of_lt hs.prescBound, BitVec.add_zero]

theorem timeAfter_succ {s t u : State} {k : Nat} (h : TimeAfter s k t) (hu : step t = .next u) : TimeAfter s (k + 1) u := by
  obtain ⟨hinv, hr, hcfg, hpresc, hnow⟩ := h
  obtain ⟨_, hpresc', hnow'⟩ := step_clockPart (noReset_now hr) hu
  have hclk : 0 < s.cfg.clkPerMs := hcfg ▸ Nat.zero_lt_of_lt hinv.prescBound
  refine ⟨stepKeepsInv t u hinv hu, noReset_step hr hu, (parametersStayAndInputsAdvance t u hu).1.trans hcfg, ?_, ?_⟩
  · rw [hpresc', nextPresc_eq_mod hinv.prescBound, hcfg, hpresc, Nat.mod_add_mod, Nat.add_assoc]
  · have hdiv : (s.presc + (k + 1)) / s.cfg.clkPerMs =
        (s.presc + k) / s.cfg.clkPerMs + ((s.presc + k) % s.cfg.clkPerMs + 1) / s.cfg.clkPerMs := by
      rw [← Nat.mul_add_div hclk, ← Nat.add_assoc (_ * _), Nat.div_add_mod, Nat.add_assoc]
    rw [hnow', nextNow_eq_div hinv.prescBound, hcfg, hpresc, hnow, hdiv, BitVec.ofNat_add, BitVec.add_assoc]

/-- Any number of cycles without a reset is counted. -/
theorem run_timeAfter {s : State} (hs : Inv s) (hr : NoReset s) (k : Nat) : ∃ t, run k s = .next t ∧ TimeAfter s k t :=
  run_induct (timeAfter_zero hs hr) (fun _ _ _ _ => timeAfter_succ) (le_refl k)

/-- Settles O55: CLK_PER_MS cycles wrap the prescaler once, to where it was. -/
theorem millisecondEveryClkPerMsCycles : Obligations.MillisecondEveryClkPerMsCycles := by
  intro s hs hr
  obtain ⟨t, ht, htime⟩ := run_timeAfter hs hr s.cfg.clkPerMs
  have hclk : 0 < s.cfg.clkPerMs := Nat.zero_lt_of_lt hs.prescBound
  refine ⟨t, ht, ?_, ?_⟩
  · rw [htime.nowMs, Nat.add_div_right _ hclk, Nat.div_eq_of_lt hs.prescBound]
    rfl
  · rw [htime.presc, Nat.add_mod_right, Nat.mod_eq_of_lt hs.prescBound]

end Sys2Proof.Machine
end

section
/-!
PROOFS. How long a slot or gap lasts (spec/43_scan_sequencer.md R205, R212): `cyclesLeft` falls by one in every cycle, and
it is 1 in the cycle that ends the slot.
-/

namespace Sys2Proof.Machine

section

variable {s : State}

/-- A slot or gap in progress has a positive count (R211). -/
theorem cnt_pos (hs : SeqFits s) (hne : s.seq.state ≠ .idle) : 1 ≤ s.seq.cnt.toNat := by
  cases hst : s.seq.state with
  | idle => exact absurd hst hne
  | slot =>
    simp only [SeqFits, hst] at hs
    obtain ⟨_, hpos, _⟩ := hs
    exact hpos
  | gap =>
    simp only [SeqFits, hst] at hs
    obtain ⟨_, hpos, _⟩ := hs
    exact hpos

/-- There is always a cycle left to run: the prescaler has not reached CLK_PER_MS. -/
theorem cyclesLeft_pos (hs : Inv s) : 1 ≤ cyclesLeft s := by
  have hpresc := hs.prescBound
  rw [cyclesLeft]
  omega

/-- The whole dwell is left when a slot or gap has begun in a tick cycle. -/
theorem cyclesLeft_of_begun (hs : Inv s) (hpresc : s.presc = 0) (hcnt : s.seq.cnt = s.dwell) :
    cyclesLeft s = s.dwell.toNat * s.cfg.clkPerMs := by
  rw [cyclesLeft, hpresc, hcnt, Nat.sub_zero, ← Nat.succ_mul, Nat.succ_eq_add_one, Nat.sub_add_cancel hs.dwellPos]

section

variable (hs : Inv s) (hne : s.seq.state ≠ .idle)
include hs hne

/-- The cycle that ends the slot or gap is the last of the cycles left (R210). -/
theorem dwellOver_iff_cyclesLeft : dwellOver s = true ↔ cyclesLeft s = 1 := by
  have hpresc := hs.prescBound
  have hcnt := cnt_pos hs.seqFits hne
  have hone : s.seq.cnt = 1 ↔ s.seq.cnt.toNat = 1 := BitVec.toNat_inj.symm
  rw [dwellOver_iff, hone, cyclesLeft]
  obtain ⟨c, hc⟩ : ∃ c, s.seq.cnt.toNat = c + 1 := ⟨_, (Nat.sub_add_cancel hcnt).symm⟩
  rw [hc, Nat.add_sub_cancel]
  cases c with
  | zero => omega
  | succ c =>
    rw [Nat.succ_mul]
    omega

/-- A cycle that does not end the slot or gap leaves one cycle less. -/
theorem cyclesLeft_countDown {t : State} (hd : dwellOver s = false) (hseq : t.seq = countDown s)
    (hpresc : t.presc = nextPresc s) (hcfg : t.cfg = s.cfg) : cyclesLeft t + 1 = cyclesLeft s := by
  have hlt := hs.prescBound
  have hcnt := cnt_pos hs.seqFits hne
  rw [cyclesLeft, cyclesLeft, hcfg, hseq, hpresc, nextPresc, countDown]
  cases ht : tick s
  · have hne' : s.presc ≠ s.cfg.clkPerMs - 1 := fun h => by rw [(tick_iff s).2 h] at ht; cases ht
    simp only [Bool.false_eq_true, if_false]
    omega
  · have hpos : 1 ≤ (countDown s).cnt.toNat := (countDown_cnt hcnt hd).1
    have hsub : (countDown s).cnt = s.seq.cnt - 1 := by rw [countDown, if_pos ht]
    have hcount : s.seq.cnt.toNat = (s.seq.cnt - 1).toNat - 1 + 2 := by
      rw [hsub] at hpos
      bv_omega
    have hend : s.presc = s.cfg.clkPerMs - 1 := (tick_iff s).1 ht
    simp only [if_true]
    rw [hcount, Nat.add_sub_assoc (by decide), Nat.add_mul, hend]
    omega

end

end

/-! ## Until it ends -/

/-- After k cycles from s the slot or gap that was in progress there still is: it has its registers but the count. -/
structure StillIn (s : State) (k : Nat) (t : State) : Prop where
  /-- The invariant holds still. -/
  inv : Inv t
  /-- No reset is planned still. -/
  noReset : NoReset t
  /-- The sequencer registers but the count are the same. -/
  seq : t.seq = { s.seq with cnt := t.seq.cnt }
  /-- The k cycles are gone from those that were left. -/
  left : cyclesLeft t + k = cyclesLeft s

theorem stillIn_zero {s : State} (hs : Inv s) (hr : NoReset s) : StillIn s 0 s := ⟨hs, hr, rfl, rfl⟩

theorem stillIn_state {s t : State} {k : Nat} (h : StillIn s k t) : t.seq.state = s.seq.state := by rw [h.seq]

theorem stillIn_succ {s t u : State} {k : Nat} (hne : s.seq.state ≠ .idle) (hk : k + 1 < cyclesLeft s) (h : StillIn s k t)
    (hu : step t = .next u) : StillIn s (k + 1) u := by
  have hne' : t.seq.state ≠ .idle := stillIn_state h ▸ hne
  obtain ⟨hinv, hr, hregs, hleft⟩ := h
  have hd : dwellOver t = false := Bool.eq_false_iff.2 fun hd => by
    rw [dwellOver_iff_cyclesLeft hinv hne'] at hd
    omega
  obtain ⟨hseq, hpresc, _⟩ := step_clockPart (noReset_now hr) hu
  rw [seqStep_going_on hne' hd] at hseq
  have hleft' := cyclesLeft_countDown hinv hne' hd hseq hpresc (parametersStayAndInputsAdvance t u hu).1
  refine ⟨stepKeepsInv t u hinv hu, noReset_step hr hu, ?_, by omega⟩
  rw [hseq, countDown_eq, hregs]

section

variable {s : State} (hs : Inv s) (hr : NoReset s) (hne : s.seq.state ≠ .idle)
include hs hr hne

/-- A slot or gap goes on for the cycles it has left (R205). -/
theorem run_stillIn {k : Nat} (hk : k < cyclesLeft s) : ∃ t, run k s = .next t ∧ StillIn s k t :=
  run_induct (n := cyclesLeft s - 1) (stillIn_zero hs hr) (fun _ _ _ hk => stillIn_succ hne (by omega)) (by omega)

/-- The last of them, the tick cycle from u to t, ends it (R210). -/
theorem run_slot_ends :
    ∃ u t, run (cyclesLeft s - 1) s = .next u ∧ StillIn s (cyclesLeft s - 1) u ∧ dwellOver u = true ∧
      step u = .next t ∧ t.presc = 0 ∧ t.seq = seqStep u := by
  have hpos := cyclesLeft_pos hs
  obtain ⟨u, hu, hin⟩ := run_stillIn hs hr hne (k := cyclesLeft s - 1) (by omega)
  have hleft := hin.left
  have hd : dwellOver u = true := (dwellOver_iff_cyclesLeft hin.inv (stillIn_state hin ▸ hne)).2 (by omega)
  obtain ⟨t, ht⟩ := exists_step u
  obtain ⟨hseq, hpresc, _⟩ := step_clockPart (noReset_now hin.noReset) ht
  refine ⟨u, t, hu, hin, hd, ht, ?_, hseq⟩
  rw [hpresc, nextPresc, if_pos ((tick_iff u).2 (dwellOver_iff.1 hd).1)]

end

/-- Settles O53: `run_stillIn` until the last cycle, and then the row of R210 that `run_slot_ends` runs. -/
theorem slotLastsItsDwell : Obligations.SlotLastsItsDwell := by
  intro s hs hr hne
  refine ⟨fun k hk => ?_, ?_⟩
  · obtain ⟨t, ht, hin⟩ := run_stillIn hs hr hne hk
    exact ⟨t, ht, hin.seq⟩
  · obtain ⟨u, t, hu, hin, hd, ht, hpresc, hseq⟩ := run_slot_ends hs hr hne
    refine ⟨u, t, hu, ht, hpresc, fun hslot => ?_, fun hgap => ?_⟩
    · rw [hseq, seqStep_slot_over ((stillIn_state hin).trans hslot) hd, hin.seq]
    · rw [hseq, seqStep_gap_over ((stillIn_state hin).trans hgap) hd, hin.seq]

end Sys2Proof.Machine
end

section
/-!
PROOFS. The period of a scan that nothing interrupts (spec/43_scan_sequencer.md R204, R212, spec/70_reset_and_hazards.md
R301). Each slot of the pass takes DWELL x CLK_PER_MS cycles and leaves one enabled digit less to come; the gap takes as
many, and a new pass begins after it.
-/

namespace Sys2Proof.Machine

/-! ## The digits still to come -/

/-- The enabled digits from index i on below DLEN, counted for proofs. -/
def enabledFrom (s : State) (i : Nat) : Nat :=
  ((Finset.range s.len).filter fun k => i ≤ k ∧ enAt s k = true).card

/-- All of them are E of R212. -/
theorem enabledFrom_zero (s : State) : enabledFrom s 0 = enabledCount s := by
  simp [enabledFrom, enabledCount, Finset.card_def, Finset.filter_val, Finset.range_val, Multiset.range]

theorem enabledFrom_of_none {s : State} {i : Nat} (h : nextEnabled s i = none) : enabledFrom s i = 0 := by
  rw [enabledFrom, Finset.card_eq_zero, Finset.filter_eq_empty_iff]
  rintro k hk ⟨hik, hen⟩
  rw [nextEnabled_eq_none.1 h k (Finset.mem_range.1 hk) hik] at hen
  cases hen

/-- The slot of the next enabled digit leaves one less to come. -/
theorem enabledFrom_of_some {s : State} {i j : Nat} (h : nextEnabled s i = some j) :
    enabledFrom s i = enabledFrom s (j + 1) + 1 := by
  obtain ⟨⟨hij, hen⟩, hj, hfirst⟩ := nextEnabled_eq_some.1 h
  have hsplit : ((Finset.range s.len).filter fun k => i ≤ k ∧ enAt s k = true) =
      insert j ((Finset.range s.len).filter fun k => j + 1 ≤ k ∧ enAt s k = true) := by
    ext k
    simp only [Finset.mem_filter, Finset.mem_range, Finset.mem_insert]
    constructor
    · rintro ⟨hk, hik, hek⟩
      rcases Nat.lt_trichotomy k j with hkj | rfl | hjk
      · rw [hfirst k hkj hik] at hek; cases hek
      · exact .inl rfl
      · exact .inr ⟨hk, hjk, hek⟩
    · rintro (rfl | ⟨hk, hjk, hek⟩)
      · exact ⟨hj, hij, hen⟩
      · exact ⟨hk, by omega, hek⟩
  rw [enabledFrom, hsplit, Finset.card_insert_of_notMem (by simp), enabledFrom]

/-! ## Idle cycles -/

/-- t differs from s at most in the time base, the sequencer, PEND and rdata. -/
def IdleFrame (s t : State) : Prop :=
  t = { s with presc := t.presc, nowMs := t.nowMs, seq := t.seq, pend := t.pend, rdata := t.rdata }

/-- The block scans without interruption: it meets the invariant, INIT has been written, passes follow each other, and the
host does nothing. -/
structure Scanning (s : State) : Prop where
  /-- The invariant holds. -/
  inv : Inv s
  /-- The host has nothing planned. -/
  quiet : s.inputs = []
  /-- The block is past INIT. -/
  init : s.init = true
  /-- CTRL.CONT is 1. -/
  cont : s.cont = true

section

variable {s t u : State}

theorem scanning_noReset (h : Scanning s) : NoReset s := by
  intro c hc
  rw [h.quiet] at hc
  cases hc

/-- An idle cycle stays in the frame (R210). -/
theorem idleFrame_step (h : s.inputs = []) (hstep : step s = .next t) : IdleFrame s t := by
  rw [idleCycleMovesOnlyTimeAndSequencer s (.inl h)] at hstep
  injection hstep with hstep
  subst hstep
  rw [IdleFrame, h]
  rfl

theorem idleFrame_trans (h : IdleFrame s t) (h' : IdleFrame t u) : IdleFrame s u := by
  unfold IdleFrame at *
  rw [h] at h'
  exact h'

/-- A scan that nothing interrupts goes on. -/
theorem scanning_step (h : Scanning s) (hstep : step s = .next t) : Scanning t := by
  have hf := idleFrame_step h.quiet hstep
  unfold IdleFrame at hf
  exact ⟨stepKeepsInv s t h.inv hstep, by rw [hf]; exact h.quiet, by rw [hf]; exact h.init, by rw [hf]; exact h.cont⟩

/-- So it does over any number of cycles, which leave all but the time base, the sequencer, PEND and rdata. -/
theorem scanning_run {k : Nat} (h : Scanning s) (hrun : run k s = .next t) : Scanning t ∧ IdleFrame s t := by
  refine run_keeps (P := fun t => Scanning t ∧ IdleFrame s t) ⟨h, rfl⟩ (fun t u ⟨ht, hf⟩ hu => ?_) hrun
  exact ⟨scanning_step ht hu, idleFrame_trans hf (idleFrame_step ht.quiet hu)⟩

theorem idleFrame_nextEnabled (h : IdleFrame s t) (i : Nat) : nextEnabled t i = nextEnabled s i := by
  unfold IdleFrame at h
  rw [h]
  rfl

theorem idleFrame_enabledFrom (h : IdleFrame s t) (i : Nat) : enabledFrom t i = enabledFrom s i := by
  unfold IdleFrame at h
  rw [h]
  rfl

/-- The dwell in cycles stays. -/
theorem idleFrame_dwell (h : IdleFrame s t) :
    t.dwell.toNat * t.cfg.clkPerMs = s.dwell.toNat * s.cfg.clkPerMs := by
  unfold IdleFrame at h
  rw [h]

end

/-! ## Where a slot begins -/

/-- The state is right after a tick cycle in which `beginSlot(i)` began a slot or the gap; the light and the byte, which that
cycle sampled, are left open. -/
def AtSlotStart (s : State) (i : Nat) : Prop :=
  s.presc = 0 ∧ s.seq.cnt = s.dwell ∧ s.seq.state = (beginSlot s i).state ∧ s.seq.idx = (beginSlot s i).idx

section

variable {s t u : State} {i j : Nat}

theorem atSlotStart_of_some (h : nextEnabled s i = some j) :
    AtSlotStart s i ↔ s.presc = 0 ∧ s.seq.cnt = s.dwell ∧ s.seq.state = .slot ∧ s.seq.idx.toNat = j := by
  have hj : j < 2 ^ 4 := (nextEnabled_eq_some.1 h).2.1.trans s.dlen.isLt
  have hidx : s.seq.idx = BitVec.ofNat 4 j ↔ s.seq.idx.toNat = j := by
    rw [← BitVec.toNat_inj, BitVec.toNat_ofNat, Nat.mod_eq_of_lt hj]
  rw [AtSlotStart, beginSlot_slot h, hidx]

theorem atSlotStart_of_none (h : nextEnabled s i = none) :
    AtSlotStart s i ↔ s.presc = 0 ∧ s.seq.cnt = s.dwell ∧ s.seq.state = .gap ∧ s.seq.idx = s.dlen := by
  rw [AtSlotStart, beginSlot_gap h]

/-- A pass starts where its first slot does, or its gap. -/
theorem atPassStart_iff (hs : Inv s) : AtPassStart s ↔ AtSlotStart s 0 := by
  cases h : nextEnabled s 0 with
  | some j => simp only [AtPassStart, h, atSlotStart_of_some h]
  | none =>
    have hfits := hs.seqFits
    simp only [AtPassStart, h, atSlotStart_of_none h]
    refine ⟨fun ⟨hpresc, hcnt, hgap⟩ => ⟨hpresc, hcnt, hgap, ?_⟩,
      fun ⟨hpresc, hcnt, hgap, _⟩ => ⟨hpresc, hcnt, hgap⟩⟩
    simp only [SeqFits, hgap] at hfits
    exact hfits.1

/-- The tick cycle from u to t that begins a slot leads to its start. -/
theorem atSlotStart_of_begun (hf : IdleFrame u t) (hpresc : t.presc = 0) (hseq : t.seq = beginSlot u i) :
    AtSlotStart t i := by
  have hlen : t.dlen = u.dlen := by rw [hf]
  have hdwell : t.dwell = u.dwell := by rw [hf]
  cases h : nextEnabled u i with
  | some j =>
    rw [AtSlotStart, hseq, beginSlot_slot h, beginSlot_slot ((idleFrame_nextEnabled hf i).trans h), hdwell]
    exact ⟨hpresc, rfl, rfl, rfl⟩
  | none =>
    rw [AtSlotStart, hseq, beginSlot_gap h, beginSlot_gap ((idleFrame_nextEnabled hf i).trans h), hdwell, hlen]
    exact ⟨hpresc, rfl, rfl, rfl⟩

theorem atSlotStart_ne_idle (h : AtSlotStart s i) : s.seq.state ≠ .idle := by
  obtain ⟨_, _, hstate, _⟩ := h
  exact hstate ▸ beginSlot_state_ne_idle s i

/-- What begins above an enabled digit is not the first slot of a pass. -/
theorem not_atPassStart_of_enabled_below (hs : Inv s) (h : AtSlotStart s i) (hji : j < i) (hj : j < s.len)
    (hen : enAt s j = true) : ¬ AtPassStart s := by
  rw [atPassStart_iff hs]
  intro h0
  cases hfirst : nextEnabled s 0 with
  | none =>
    rw [nextEnabled_eq_none.1 hfirst j hj (Nat.zero_le j)] at hen
    cases hen
  | some a =>
    obtain ⟨_, _, hslot, ha⟩ := (atSlotStart_of_some hfirst).1 h0
    have haj : a ≤ j := by
      by_contra hja
      rw [(nextEnabled_eq_some.1 hfirst).2.2 j (by omega) (Nat.zero_le j)] at hen
      cases hen
    cases hnext : nextEnabled s i with
    | none =>
      obtain ⟨_, _, hgap, _⟩ := (atSlotStart_of_none hnext).1 h
      rw [hslot] at hgap
      cases hgap
    | some b =>
      obtain ⟨_, _, _, hb⟩ := (atSlotStart_of_some hnext).1 h
      have hib : i ≤ b := (nextEnabled_eq_some.1 hnext).1.1
      omega

end

/-! ## One slot, one pass -/

section

variable {s : State} {i : Nat} (hs : Scanning s) (hat : AtSlotStart s i)
include hs hat

/-- A slot or gap at its start has its whole dwell left. -/
theorem cyclesLeft_atSlotStart : cyclesLeft s = s.dwell.toNat * s.cfg.clkPerMs := by
  obtain ⟨hpresc, hcnt, _⟩ := hat
  exact cyclesLeft_of_begun hs.inv hpresc hcnt

/-- No pass starts within the dwell. -/
theorem not_atPassStart_within {k : Nat} (hk : 0 < k) (hlt : k < s.dwell.toNat * s.cfg.clkPerMs) {t : State}
    (hrun : run k s = .next t) : ¬ AtPassStart t := by
  have hleft := cyclesLeft_atSlotStart hs hat
  obtain ⟨t', ht', hin⟩ := run_stillIn hs.inv (scanning_noReset hs) (atSlotStart_ne_idle hat) (hleft ▸ hlt)
  rw [hrun] at ht'
  injection ht' with ht'
  subst ht'
  obtain ⟨_, hf⟩ := scanning_run hs hrun
  rintro ⟨hpresc, hcnt, _⟩
  have hwhole := cyclesLeft_of_begun hin.inv hpresc hcnt
  rw [idleFrame_dwell hf] at hwhole
  have hgone := hin.left
  omega

/-- After the dwell of the slot of digit j the slot of the next enabled digit begins, or the gap; after the dwell of the gap
a new pass does (R210). -/
theorem run_dwell :
    ∃ t, run (s.dwell.toNat * s.cfg.clkPerMs) s = .next t ∧
      (∀ j, nextEnabled s i = some j → AtSlotStart t (j + 1)) ∧ (nextEnabled s i = none → AtSlotStart t 0) := by
  obtain ⟨u, t, hu, hin, hd, ht, hpresc, hseq⟩ := run_slot_ends hs.inv (scanning_noReset hs) (atSlotStart_ne_idle hat)
  obtain ⟨hscan, _⟩ := scanning_run hs hu
  have hf : IdleFrame u t := idleFrame_step hscan.quiet ht
  have hrun := run_succ_of hu ht
  rw [Nat.sub_add_cancel (cyclesLeft_pos hs.inv), cyclesLeft_atSlotStart hs hat] at hrun
  refine ⟨t, hrun, fun j hnext => ?_, fun hnext => ?_⟩
  · obtain ⟨_, _, hslot, hidx⟩ := (atSlotStart_of_some hnext).1 hat
    have huidx : u.seq.idx = s.seq.idx := by rw [hin.seq]
    refine atSlotStart_of_begun hf hpresc ?_
    rw [hseq, seqStep_slot_over ((stillIn_state hin).trans hslot) hd, huidx, hidx]
  · obtain ⟨_, _, hgap, _⟩ := (atSlotStart_of_none hnext).1 hat
    refine atSlotStart_of_begun hf hpresc ?_
    rw [hseq, seqStep_gap_over ((stillIn_state hin).trans hgap) hd, hscan.cont, Bool.true_or, if_pos rfl]

end

/-- The next pass starts n cycles from now, and none does before. -/
def NextPassIn (n : Nat) (s : State) : Prop :=
  (∃ t, run n s = .next t ∧ AtPassStart t) ∧ ∀ k, 0 < k → k < n → ∀ t, run k s = .next t → ¬ AtPassStart t

/-- The next pass is d cycles further away from where the block was d cycles ago, if none started since. -/
theorem nextPassIn_add {d n : Nat} {s u : State} (hu : run d s = .next u)
    (hbefore : ∀ k, 0 < k → k < d → ∀ t, run k s = .next t → ¬ AtPassStart t) (hat : ¬ AtPassStart u)
    (h : NextPassIn n u) : NextPassIn (d + n) s := by
  obtain ⟨⟨t, ht, hpass⟩, hnone⟩ := h
  refine ⟨⟨t, (run_add hu n).trans ht, hpass⟩, fun k hk hlt t hrun => ?_⟩
  rcases Nat.lt_trichotomy k d with hkd | rfl | hdk
  · exact hbefore k hk hkd t hrun
  · rw [hu] at hrun
    injection hrun with hrun
    exact hrun ▸ hat
  · obtain ⟨a, rfl⟩ := Nat.exists_eq_add_of_lt hdk
    rw [Nat.add_assoc, run_add hu] at hrun
    exact hnone (a + 1) (Nat.succ_pos a) (by omega) t hrun

section

variable {s : State} {i : Nat} (hs : Scanning s) (hat : AtSlotStart s i)
include hs hat

/-- The gap's dwell is the end of the pass. -/
theorem nextPassIn_gap (hnext : nextEnabled s i = none) : NextPassIn (s.dwell.toNat * s.cfg.clkPerMs) s := by
  obtain ⟨t, ht, _, hgap⟩ := run_dwell hs hat
  refine ⟨⟨t, ht, (atPassStart_iff (scanning_run hs ht).1.inv).2 (hgap hnext)⟩, fun k hk hlt t => ?_⟩
  exact not_atPassStart_within hs hat hk hlt

/-- The slot of digit j puts its dwell before the rest of the pass, which begins above j. -/
theorem nextPassIn_slot {j n : Nat} (hnext : nextEnabled s i = some j)
    (hrest : ∀ u, Scanning u → IdleFrame s u → AtSlotStart u (j + 1) → NextPassIn n u) :
    NextPassIn (s.dwell.toNat * s.cfg.clkPerMs + n) s := by
  obtain ⟨⟨_, hen⟩, hj, _⟩ := nextEnabled_eq_some.1 hnext
  obtain ⟨u, hu, hslot, _⟩ := run_dwell hs hat
  obtain ⟨hscan, hf⟩ := scanning_run hs hu
  have hju : j < u.len := by rw [hf]; exact hj
  have henu : enAt u j = true := by rw [hf]; exact hen
  have hnot : ¬ AtPassStart u :=
    not_atPassStart_of_enabled_below hscan.inv (hslot j hnext) (Nat.lt_succ_self j) hju henu
  exact nextPassIn_add hu (fun k hk hlt t => not_atPassStart_within hs hat hk hlt) hnot (hrest u hscan hf (hslot j hnext))

end

/-- With n enabled digits from i on, their slots and the gap take n + 1 dwells. By induction on n: the slot in progress
leaves n - 1 digits for the rest of the pass. -/
theorem nextPassIn_restOfPass {n : Nat} {s : State} {i : Nat} (hs : Scanning s) (hat : AtSlotStart s i)
    (hn : enabledFrom s i = n) : NextPassIn ((n + 1) * (s.dwell.toNat * s.cfg.clkPerMs)) s := by
  induction n generalizing s i with
  | zero =>
    rw [Nat.zero_add, Nat.one_mul]
    cases hnext : nextEnabled s i with
    | none => exact nextPassIn_gap hs hat hnext
    | some j => rw [enabledFrom_of_some hnext] at hn; cases hn
  | succ n ih =>
    cases hnext : nextEnabled s i with
    | none => rw [enabledFrom_of_none hnext] at hn; cases hn
    | some j =>
      rw [Nat.succ_mul (n + 1), Nat.add_comm]
      refine nextPassIn_slot hs hat hnext fun u hscan hf hstart => ?_
      have hrest : enabledFrom u (j + 1) = n := by
        rw [enabledFrom_of_some hnext] at hn
        rw [idleFrame_enabledFrom hf]
        exact Nat.succ.inj hn
      rw [← idleFrame_dwell hf]
      exact ih hscan hstart hrest

/-- Settles O54: the rest of the pass from its first slot on, with all E enabled digits to come. -/
theorem passPeriod : Obligations.PassPeriod := by
  intro s hs hquiet hinit hcont hat
  have hpass := nextPassIn_restOfPass ⟨hs, hquiet, hinit, hcont⟩ ((atPassStart_iff hs).1 hat) (enabledFrom_zero s)
  rwa [← Nat.mul_assoc] at hpass

end Sys2Proof.Machine
end

section
/-!
PROOFS. The order of the two parts of a cycle (spec/44_lifecycle.md R246): the bus operation reads and writes nothing that
the clock's part commits, but for PEND, where a request wins in either order. So the two parts commute
(`busEffect_commit`).
-/

namespace Sys2Proof.Machine

section

variable (s : State) (op : BusOp) (e : State)

/-- A check that reads nothing of the clock's part. -/
theorem ite_commit {c : Prop} [Decidable c] {a a' b b' : State} (ha : a' = commit s op a) (hb : b' = commit s op b) :
    (if c then a' else b') = commit s op (if c then a else b) := by
  rw [ha, hb, apply_ite (commit s op)]

/-! ## Commands -/

/-- A request after the clock's part wins like one before it (R246). -/
theorem setPend_true_commit : (commit s op e).setPend true = commit s op (e.setPend true) := rfl

theorem writeDigit_commit (d : Nat) (b : Byte) : writeDigit d b (commit s op e) = commit s op (writeDigit d b e) := by
  unfold writeDigit
  exact ite_commit s op rfl rfl

theorem answer_commit (valid : Bool) (v : Word) : answer valid v (commit s op e) = commit s op (answer valid v e) := by
  rw [answer_eq, answer_eq]
  rfl

/-- A command's effect commutes with the clock's part. -/
theorem effectOf_commit (i : Instr) : effectOf i (commit s op e) = commit s op (effectOf i e) := by
  cases i
  case nop | init | clear | shift | enAll | blinkAll => rfl
  case refresh => exact setPend_true_commit s op e
  case setByte | setDigit | setChar => exact writeDigit_commit s op e _ _
  case setSeg => exact ite_commit s op (writeDigit_commit s op e _ _) rfl
  case setInt | enDigit | blinkDigit => exact ite_commit s op rfl rfl
  all_goals exact answer_commit s op e _ _

/-- Every command commutes with the clock's part. -/
theorem exec_commit (i : Instr) : exec i (commit s op e) = mapNext (commit s op) (exec i e) := by
  rw [exec_eq, exec_eq, mapNext_next]
  exact congrArg Host.Outcome.next
    (ite_commit s op (effectOf_commit s op e i) (ite_commit s op rfl (ite_commit s op rfl rfl)))

/-! ## Bus operations -/

variable (w : Word)

theorem execWord_commit : execWord w (commit s op e) = mapNext (commit s op) (execWord w e) := by
  unfold execWord
  cases decode w with
  | ok i => exact exec_commit s op e i
  | error _ => rfl

theorem writeStatus_commit : writeStatus w (commit s op e) = commit s op (writeStatus w e) := by
  unfold writeStatus
  exact ite_commit s op rfl rfl

theorem writeConfig_commit : writeConfig w (commit s op e) = commit s op (writeConfig w e) := by
  unfold writeConfig rejectUnless
  exact ite_commit s op rfl (ite_commit s op rfl rfl)

theorem writeBlinkIv_commit : writeBlinkIv w (commit s op e) = commit s op (writeBlinkIv w e) := by
  unfold writeBlinkIv
  exact ite_commit s op rfl rfl

theorem writeUnkGlyph_commit : writeUnkGlyph w (commit s op e) = commit s op (writeUnkGlyph w e) := by
  unfold writeUnkGlyph
  exact ite_commit s op rfl rfl

/-- Every register write commutes with the clock's part. -/
theorem writeReg_commit (a : BitVec 4) : writeReg a w (commit s op e) = mapNext (commit s op) (writeReg a w e) := by
  unfold writeReg
  split_ifs
  · exact execWord_commit s op e w
  · rfl
  · exact congrArg Host.Outcome.next (writeStatus_commit s op e w)
  · exact congrArg Host.Outcome.next (writeConfig_commit s op e w)
  · exact congrArg Host.Outcome.next (writeBlinkIv_commit s op e w)
  · exact congrArg Host.Outcome.next (writeUnkGlyph_commit s op e w)
  · rfl
  · rfl

/-- Every bus operation commutes with the clock's part (R246). -/
theorem busEffect_commit (op' : BusOp) :
    busEffect op' (commit s op e) = mapNext (commit s op) (busEffect op' e) := by
  cases op' with
  | idle => rfl
  | read _ => rfl
  | write a w => exact writeReg_commit s op e w a

end

/-- The clock's part alone: the time base, the sequencer, its clear of PEND, the host's progress and rdata (R200, R201,
R210, R246). -/
theorem commit_setPend_false (s : State) (op : BusOp) :
    commit s op (s.setPend false) =
      { s with
        presc := nextPresc s
        nowMs := nextNow s
        seq := seqStep s
        pend := !passStarts s && s.pend
        inputs := s.inputs.tail
        rdata := readData s op } := by
  rw [commit, setPend_pend, mergePend_eq, Bool.false_or]
  rfl

/-- Settles O11: the step runs the clock's part after the bus operation, and the two commute. -/
theorem busAndSequencerOrderDoesNotMatter : Obligations.BusAndSequencerOrderDoesNotMatter := by
  intro s op rest hin
  have hthis : thisInput s = { rst := false, op := op } := thisInput_cons hin
  calc step s
      = mapNext (commit s op) (busEffect op (s.setPend false)) := by
        rw [step, clockCycle, hthis]
        rfl
    _ = busEffect op (commit s op (s.setPend false)) := (busEffect_commit s op _ op).symm
    _ = _ := by
        rw [commit_setPend_false, hin]
        rfl

end Sys2Proof.Machine
end

section
/-!
PROOFS. The lifecycle (spec/44_lifecycle.md R240 to R244, R248, spec/60_exceptions.md R263, R267): NOP, INIT, the gate
before INIT, and what changes the phase.
-/

namespace Sys2Proof.Machine

/-- Settles O10: neither a reset cycle nor a bus operation stops the block. -/
theorem everyStepGoesOn : Obligations.EveryStepGoesOn := exists_step

/-- Settles O15: the opcode alone selects NOP, and NOP passes no gate. -/
theorem nopHasNoEffect : Obligations.NopHasNoEffect :=
  ⟨fun _ h => decode_of_opcode (i := .nop) h, fun _ => rfl⟩

/-- The first INIT sets init and nothing else (R242). -/
theorem exec_init_before_init {s : State} (h : s.init = false) : exec .init s = .next { s with init := true } := by
  rw [exec, execInit, h]
  rfl

/-- Settles O16: INIT checks init itself. -/
theorem initIsAcceptedOnce : Obligations.InitIsAcceptedOnce :=
  ⟨fun _ h => decode_of_opcode (i := .init) h, fun _ => exec_init_before_init, fun _ h => exec_of_init .init h⟩

/-- Settles O17: every other command is an effect behind the lifecycle gate. -/
theorem commandsBeforeInitAreRejected : Obligations.CommandsBeforeInitAreRejected :=
  fun _ s hi hnop hinit => exec_before_init s hnop hinit hi

/-- A reset that the host asserts now is the first of the cycles it has planned: a host with none left is idle. -/
theorem inputs_of_reset {s : State} (hr : (thisInput s).rst = true) :
    s.inputs = { rst := true, op := (thisInput s).op } :: s.inputs.tail := by
  cases hin : s.inputs with
  | nil => rw [thisInput_nil hin] at hr; cases hr
  | cons c rest =>
    rw [thisInput_cons hin] at hr ⊢
    rw [← hr]
    rfl

/-- Only a reset cycle returns to the configuration phase (R267). -/
theorem rst_of_step_init_true {s t : State} (h : step s = .next t) (hi : s.init = true) (ht : t.init = false) :
    (thisInput s).rst = true := by
  by_contra hr
  obtain ⟨hkept, _⟩ := configurationIsFrozenAfterInit s t hi (Bool.eq_false_iff.2 hr) h
  rw [ht] at hkept
  cases hkept

/-- Settles O19, by `step_init_false` for the way up and `rst_of_step_init_true` for the way back. -/
theorem onlyInitAndResetChangeThePhase : Obligations.OnlyInitAndResetChangeThePhase := by
  intro s t h
  refine ⟨fun hi ht => ?_, fun hi ht => ⟨_, _, inputs_of_reset (rst_of_step_init_true h hi ht)⟩⟩
  by_contra hno
  have hstay : t.init = false := step_init_false hi h fun w rest hin hw => hno ⟨w, rest, hin, hw⟩
  rw [ht] at hstay
  cases hstay

end Sys2Proof.Machine
end

section
/-!
PROOFS. What a rejected command or register write leaves (spec/60_exceptions.md R260, R261): everything but REJ, unless it
is a query with a sentinel answer (R262) or a CONFIG write before INIT (R32).
-/

namespace Sys2Proof.Machine

/-- A command that answers no sentinel: none of the four queries with an index, which write RESULT even when the index is
out of range (R262, events 12 and 13 of R261). -/
def NoSentinel (i : Instr) : Prop :=
  (∀ d, i ≠ .getByte d) ∧ (∀ d k, i ≠ .getSeg d k) ∧ (∀ b k on, i ≠ .segSet b k on) ∧ ∀ b k, i ≠ .segTest b k

section

variable {i : Instr} {s : State}

/-- After INIT a command with a flaw of its own is rejected when it has no sentinel to answer (events 4, 5 and 6). -/
theorem exec_of_flaw (hi : s.init = true) (hq : NoSentinel i) (hf : commandFlaw s i) :
    exec i s = .next { s with rej := true } := by
  obtain ⟨hGetByte, hGetSeg, hSegSet, hSegTest⟩ := hq
  cases i
  case setByte | setDigit | setChar => rw [exec_of_init _ hi, effectOf, writeDigit_of_not_lt _ hf]
  case setSeg d k on =>
    refine exec_setSeg_of_invalid on hi fun ⟨hd, hk⟩ => ?_
    rcases hf with hd' | hk'
    · exact hd' hd
    · exact absurd hk (Bool.eq_false_iff.1 hk')
  case enDigit d on => exact exec_digitFlag_of_invalid on (.inl rfl) hi hf
  case blinkDigit d on => exact exec_digitFlag_of_invalid on (.inr rfl) hi hf
  case setInt lz => exact exec_setInt_of_outOfRange lz hi fun h => hf ((valueInRange_iff _ _).1 h)
  case getByte d => exact absurd rfl (hGetByte d)
  case getSeg d k => exact absurd rfl (hGetSeg d k)
  case segSet b k on => exact absurd rfl (hSegSet b k on)
  case segTest b k => exact absurd rfl (hSegTest b k)
  all_goals exact hf.elim

/-- A rejected command without a sentinel sets REJ and nothing else: before INIT by the gate, after it as a second INIT or
for its own flaw. -/
theorem exec_of_commandRejects (hq : NoSentinel i) (h : commandRejects s i) :
    exec i s = .next { s with rej := true } := by
  rcases h with ⟨hi, hnop, hinit⟩ | ⟨hi, rfl | hf⟩
  · exact exec_before_init s hnop hinit hi
  · exact exec_of_init .init hi
  · exact exec_of_flaw hi hq hf

/-- A bus operation of R261's list sets REJ and nothing else: at each address the write is refused as a whole, but for the
CONFIG write before INIT and the sentinel queries. -/
theorem busEffect_of_rejEvent {op : BusOp} (hconfig : ∀ w, op = .write addrConfig w → s.init = true)
    (hq : ∀ w i, op = .write addrCmd w → decode w = .ok i → NoSentinel i) (h : rejEvent s op) :
    busEffect op s = .next { s with rej := true } := by
  cases op with
  | idle => exact h.elim
  | read a => exact h.elim
  | write a w =>
    have hrejected := lockedAndReadOnlyWritesAreRejected s w
    obtain ⟨_, _, hzeroIv, _⟩ := openRegistersTakeTheirWrites s w
    rcases h with ⟨rfl, ⟨e, he⟩ | ⟨i, hd, hrej⟩⟩ | ⟨rfl, _⟩ | ⟨rfl, hiv⟩ | ⟨rfl, hi⟩ | hreadOnly
    · exact writeReg_cmd_reserved (decode_error_iff.1 he).1 s
    · rw [← exec_of_commandRejects (hq w i rfl hd) hrej]
      exact busEffect_command hd s
    · exact (hrejected addrConfig).2 (hconfig w rfl) (.inl rfl)
    · exact hzeroIv hiv
    · exact (hrejected addrUnkGlyph).2 hi (.inr rfl)
    · exact (hrejected a).1 hreadOnly

end

/-- Settles O23: `exec_of_commandRejects` for the commands, `busEffect_of_rejEvent` for the bus operations. -/
theorem rejectedCommandsHaveNoOtherEffect : Obligations.RejectedCommandsHaveNoOtherEffect :=
  ⟨fun _ _ h hGetByte hGetSeg hSegSet hSegTest => exec_of_commandRejects ⟨hGetByte, hGetSeg, hSegSet, hSegTest⟩ h,
    fun _ _ h hconfig hq => busEffect_of_rejEvent hconfig hq h⟩

end Sys2Proof.Machine
end

section
/-!
PROOFS. The output ports after a reset edge (spec/70_reset_and_hazards.md R284): the reset state is in no lit slot, drives
no pin and has POL 0.
-/

namespace Sys2Proof.Machine

/-- Outside a lit slot every segment line is at the level of POL, so with POL 0 the segment byte is 0 (R221). -/
theorem segOutByte_of_not_litNow {s : State} (h : litNow s = false) (hpol : s.pol = false) : segOutByte s = 0x00 := by
  apply BitVec.eq_of_getLsbD_eq
  intro k hk
  have hline : segOut s k = false := (released_of_not_litNow h 0 k).1.trans hpol
  rw [segOutByte_getLsbD s hk, hline]
  exact BitVec.getLsbD_zero.symm

/-- With POL 0 a duty is handed on as it is (R222). -/
theorem effDuty_of_pol_false {s : State} (hpol : s.pol = false) (x : Byte) : effDuty s x = x := by
  simp [effDuty, hpol]

/-- The sequencer is idle after a reset edge, so no slot is lit (R280). -/
theorem litNow_resetEdge (s : State) : litNow (resetEdge s) = false := rfl

/-- Settles O59: a reset cycle ends in `resetEdge`, where no slot is lit and POL is 0, so every line is released. -/
theorem outputsAfterReset : Obligations.OutputsAfterReset := by
  intro s t op rest hin hstep
  rw [step_reset (by rw [thisInput_cons hin])] at hstep
  cases hstep
  have hlit : litNow (resetEdge s) = false := litNow_resetEdge s
  have hpol : (resetEdge s).pol = false := rfl
  refine ⟨rfl, segOutByte_of_not_litNow hlit hpol, fun i => ?_⟩
  obtain ⟨_, hact, hduty⟩ := released_of_not_litNow hlit i 0
  exact ⟨hact, hduty.trans (effDuty_of_pol_false hpol 0)⟩

end Sys2Proof.Machine
end
